-- ==== Sys2Proof/Word.lean ====
section
/-! DEFINITION. The two widths of the machine: bytes and 16-bit words (00_scope.md R5, R8). -/

namespace Sys2Proof

/-- A byte: data width 8 bits (R5). -/
abbrev Byte := BitVec 8

/-- A 16-bit word: an address, a vector or the pending mask (R5). -/
abbrev Word := BitVec 16

end Sys2Proof
end

