-- ==== Sys2Proof/Config.lean ====
section
/-! DEFINITION. What is fixed for a machine: the sizes of R5, the launch parameters (R5, R340), and the opaque
constants that stand for what the spec leaves open. Chosen by the spec and fixed here: DECIMAL_MODEL is binary (D2),
JMP_IND_PAGEWRAP is false (D4), the vector words are indexed by line (D9). -/

namespace Sys2Proof

/-- Size of system RAM (R5, R44). -/
def Config.ramSize : Nat := 0x600
/-- Size of display RAM (R5, R44). -/
def Config.dispSize : Nat := 0x200
/-- Number of control registers (R5, R34). -/
def Config.numRegs : Nat := 256
/-- Number of bus addresses (R60). -/
def Config.busSize : Nat := 65536
/-- Size of the banked ROM window (R5, R70). -/
def Config.bankWindow : Nat := 0x8000
/-- Number of ROM banks (R5, R70). -/
def Config.bankCount : Nat := 20
/-- Size of the static boot ROM, the least length of a boot image (R5, R351). -/
def Config.staticRom : Nat := 0x4000
/-- Image length under which every banked read is defined (R72, D14). -/
def Config.fullImage : Nat := 0xA0000
/-- Image offset of the 16 vector words (R5, R270). -/
def Config.vectabOff : Nat := 0x3FC0

/-- The free byte number `n`: what a read at an image offset at or beyond `IMAGE_LEN` returns
(R72, D14, "any value", a fresh draw per read). No value of it can be proved. Log 11. -/
opaque Config.freeByte : Nat → Byte

/-- What `PORTA_IN` (R330, D30) gives beside the pressed keys: a function of the keypad, of whether a figure is inserted,
and of the 256 register bytes (index 0 first), which the spec leaves open. Log 12. -/
opaque Config.portAIn : BitVec 4 → Bool → List Byte → Byte

/-- Which bit of port A carries each of the four keys: left open by R330. Log 12. -/
opaque Config.portAKeyBit : Fin 4 → Fin 8

/-- The launch parameters (R5, R340): fixed at construction, never changed by a step (log 1). -/
structure Params where
  /-- `IMAGE` (R45): the bytes that are not zero, by rising offset (log 10). -/
  image : List Host.Cell
  /-- `IMAGE_LEN` (R5, R72). -/
  imageLen : Nat
  /-- `EE_BITS` (R310). -/
  eeBits : Nat
  /-- `VECTOR_IDLE` (R270, D10). -/
  vectorIdle : Word
  /-- `REG_BANK` (R35). -/
  regBank : Byte
  /-- `REG_IRQEN_HI` (R36). -/
  regIrqEnHi : Byte
  /-- `REG_IRQEN_LO` (R36). -/
  regIrqEnLo : Byte
  /-- `REG_IRQPEND_HI` (R37). -/
  regIrqPendHi : Byte
  /-- `REG_IRQPEND_LO` (R37). -/
  regIrqPendLo : Byte
  /-- `REG_NMIEN` (R38). -/
  regNmiEn : Byte
  /-- `REG_PA_DATA` (R40). -/
  regPaData : Byte
  /-- `REG_PB_DIR` (R39). -/
  regPbDir : Byte
  /-- `REG_PB_DATA` (R39). -/
  regPbData : Byte
  /-- `REG_FF` (R41). -/
  regFF : Byte
  /-- `PB_POWER_BIT` (R302). -/
  pbPowerBit : Fin 8
  /-- `PB_CLOCK_BIT` (R302). -/
  pbClockBit : Fin 8
  /-- `PB_DATA_BIT` (R302). -/
  pbDataBit : Fin 8
  deriving DecidableEq, Repr

/-- The ten named register indices (R5), in the order of R5's table. -/
def Params.registerIndices (p : Params) : List Byte :=
  [p.regBank, p.regIrqEnHi, p.regIrqEnLo, p.regIrqPendHi, p.regIrqPendLo, p.regNmiEn,
   p.regPaData, p.regPbDir, p.regPbData, p.regFF]

/-- The three port-B bit numbers (R302). -/
def Params.portBits (p : Params) : List (Fin 8) :=
  [p.pbPowerBit, p.pbClockBit, p.pbDataBit]

/-- The parameters of `State.reset`: DESIGN CHOICE, the spec's reference binding (D11, D18; logs 4, 5),
the default `EE_BITS` of R310, a blank image of full length (log 3), `VECTOR_IDLE` 0 (log 6). -/
def Params.reference : Params where
  image := []
  imageLen := Config.fullImage
  eeBits := 12
  vectorIdle := 0x0000#16
  regBank := 0x00#8
  regIrqEnHi := 0x70#8
  regIrqEnLo := 0x71#8
  regIrqPendHi := 0x73#8
  regIrqPendLo := 0x74#8
  regNmiEn := 0x76#8
  regPaData := 0x12#8
  regPbDir := 0x15#8
  regPbData := 0x16#8
  regFF := 0xFF#8
  pbPowerBit := 2
  pbClockBit := 1
  pbDataBit := 0

end Sys2Proof
end

