-- ==== Sys2Proof/Syntax.lean ====
section
/-! DEFINITION. The instructions: one constructor for each of the 151 rows of the opcode table (30_encoding.md R116),
with the operand bytes of its format (R100): `d` is the one operand byte of F2, `a` the 16-bit operand of F3. -/

namespace Sys2Proof

/-- One row of the opcode table with its operand. A name is the mnemonic and its addressing mode. -/
inductive Instr where
  /-- BRK, mode imp, opcode 0x00: R239. -/
  | brk
  /-- ORA, mode indx, opcode 0x01: R175. -/
  | oraIndX (d : Byte)
  /-- ORA, mode zp, opcode 0x05: R175. -/
  | oraZp (d : Byte)
  /-- ASL, mode zp, opcode 0x06: R191. -/
  | aslZp (d : Byte)
  /-- PHP, mode imp, opcode 0x08: R163. -/
  | php
  /-- ORA, mode imm, opcode 0x09: R175. -/
  | oraImm (d : Byte)
  /-- ASL, mode acc, opcode 0x0A: R191. -/
  | aslAcc
  /-- ORA, mode abs, opcode 0x0D: R175. -/
  | oraAbs (a : Word)
  /-- ASL, mode abs, opcode 0x0E: R191. -/
  | aslAbs (a : Word)
  /-- BPL, mode rel, opcode 0x10: R221. -/
  | bpl (d : Byte)
  /-- ORA, mode indy, opcode 0x11: R175. -/
  | oraIndY (d : Byte)
  /-- ORA, mode zpx, opcode 0x15: R175. -/
  | oraZpX (d : Byte)
  /-- ASL, mode zpx, opcode 0x16: R191. -/
  | aslZpX (d : Byte)
  /-- CLC, mode imp, opcode 0x18: R231. -/
  | clc
  /-- ORA, mode absy, opcode 0x19: R175. -/
  | oraAbsY (a : Word)
  /-- ORA, mode absx, opcode 0x1D: R175. -/
  | oraAbsX (a : Word)
  /-- ASL, mode absx, opcode 0x1E: R191. -/
  | aslAbsX (a : Word)
  /-- JSR, mode abs, opcode 0x20: R213. -/
  | jsr (a : Word)
  /-- AND, mode indx, opcode 0x21: R174. -/
  | andIndX (d : Byte)
  /-- BIT, mode zp, opcode 0x24: R180. -/
  | bitZp (d : Byte)
  /-- AND, mode zp, opcode 0x25: R174. -/
  | andZp (d : Byte)
  /-- ROL, mode zp, opcode 0x26: R193. -/
  | rolZp (d : Byte)
  /-- PLP, mode imp, opcode 0x28: R165. -/
  | plp
  /-- AND, mode imm, opcode 0x29: R174. -/
  | andImm (d : Byte)
  /-- ROL, mode acc, opcode 0x2A: R193. -/
  | rolAcc
  /-- BIT, mode abs, opcode 0x2C: R180. -/
  | bitAbs (a : Word)
  /-- AND, mode abs, opcode 0x2D: R174. -/
  | andAbs (a : Word)
  /-- ROL, mode abs, opcode 0x2E: R193. -/
  | rolAbs (a : Word)
  /-- BMI, mode rel, opcode 0x30: R220. -/
  | bmi (d : Byte)
  /-- AND, mode indy, opcode 0x31: R174. -/
  | andIndY (d : Byte)
  /-- AND, mode zpx, opcode 0x35: R174. -/
  | andZpX (d : Byte)
  /-- ROL, mode zpx, opcode 0x36: R193. -/
  | rolZpX (d : Byte)
  /-- SEC, mode imp, opcode 0x38: R232. -/
  | sec
  /-- AND, mode absy, opcode 0x39: R174. -/
  | andAbsY (a : Word)
  /-- AND, mode absx, opcode 0x3D: R174. -/
  | andAbsX (a : Word)
  /-- ROL, mode absx, opcode 0x3E: R193. -/
  | rolAbsX (a : Word)
  /-- RTI, mode imp, opcode 0x40: R240. -/
  | rti
  /-- EOR, mode indx, opcode 0x41: R176. -/
  | eorIndX (d : Byte)
  /-- EOR, mode zp, opcode 0x45: R176. -/
  | eorZp (d : Byte)
  /-- LSR, mode zp, opcode 0x46: R192. -/
  | lsrZp (d : Byte)
  /-- PHA, mode imp, opcode 0x48: R162. -/
  | pha
  /-- EOR, mode imm, opcode 0x49: R176. -/
  | eorImm (d : Byte)
  /-- LSR, mode acc, opcode 0x4A: R192. -/
  | lsrAcc
  /-- JMP, mode abs, opcode 0x4C: R211. -/
  | jmpAbs (a : Word)
  /-- EOR, mode abs, opcode 0x4D: R176. -/
  | eorAbs (a : Word)
  /-- LSR, mode abs, opcode 0x4E: R192. -/
  | lsrAbs (a : Word)
  /-- BVC, mode rel, opcode 0x50: R222. -/
  | bvc (d : Byte)
  /-- EOR, mode indy, opcode 0x51: R176. -/
  | eorIndY (d : Byte)
  /-- EOR, mode zpx, opcode 0x55: R176. -/
  | eorZpX (d : Byte)
  /-- LSR, mode zpx, opcode 0x56: R192. -/
  | lsrZpX (d : Byte)
  /-- CLI, mode imp, opcode 0x58: R233. -/
  | cli
  /-- EOR, mode absy, opcode 0x59: R176. -/
  | eorAbsY (a : Word)
  /-- EOR, mode absx, opcode 0x5D: R176. -/
  | eorAbsX (a : Word)
  /-- LSR, mode absx, opcode 0x5E: R192. -/
  | lsrAbsX (a : Word)
  /-- RTS, mode imp, opcode 0x60: R214. -/
  | rts
  /-- ADC, mode indx, opcode 0x61: R171. -/
  | adcIndX (d : Byte)
  /-- ADC, mode zp, opcode 0x65: R171. -/
  | adcZp (d : Byte)
  /-- ROR, mode zp, opcode 0x66: R194. -/
  | rorZp (d : Byte)
  /-- PLA, mode imp, opcode 0x68: R164. -/
  | pla
  /-- ADC, mode imm, opcode 0x69: R171. -/
  | adcImm (d : Byte)
  /-- ROR, mode acc, opcode 0x6A: R194. -/
  | rorAcc
  /-- JMP, mode ind, opcode 0x6C: R212. -/
  | jmpInd (a : Word)
  /-- ADC, mode abs, opcode 0x6D: R171. -/
  | adcAbs (a : Word)
  /-- ROR, mode abs, opcode 0x6E: R194. -/
  | rorAbs (a : Word)
  /-- BVS, mode rel, opcode 0x70: R223. -/
  | bvs (d : Byte)
  /-- ADC, mode indy, opcode 0x71: R171. -/
  | adcIndY (d : Byte)
  /-- ADC, mode zpx, opcode 0x75: R171. -/
  | adcZpX (d : Byte)
  /-- ROR, mode zpx, opcode 0x76: R194. -/
  | rorZpX (d : Byte)
  /-- SEI, mode imp, opcode 0x78: R234. -/
  | sei
  /-- ADC, mode absy, opcode 0x79: R171. -/
  | adcAbsY (a : Word)
  /-- ADC, mode absx, opcode 0x7D: R171. -/
  | adcAbsX (a : Word)
  /-- ROR, mode absx, opcode 0x7E: R194. -/
  | rorAbsX (a : Word)
  /-- STA, mode indx, opcode 0x81: R144. -/
  | staIndX (d : Byte)
  /-- STY, mode zp, opcode 0x84: R146. -/
  | styZp (d : Byte)
  /-- STA, mode zp, opcode 0x85: R144. -/
  | staZp (d : Byte)
  /-- STX, mode zp, opcode 0x86: R145. -/
  | stxZp (d : Byte)
  /-- DEY, mode imp, opcode 0x88: R200. -/
  | dey
  /-- TXA, mode imp, opcode 0x8A: R149. -/
  | txa
  /-- STY, mode abs, opcode 0x8C: R146. -/
  | styAbs (a : Word)
  /-- STA, mode abs, opcode 0x8D: R144. -/
  | staAbs (a : Word)
  /-- STX, mode abs, opcode 0x8E: R145. -/
  | stxAbs (a : Word)
  /-- BCC, mode rel, opcode 0x90: R216. -/
  | bcc (d : Byte)
  /-- STA, mode indy, opcode 0x91: R144. -/
  | staIndY (d : Byte)
  /-- STY, mode zpx, opcode 0x94: R146. -/
  | styZpX (d : Byte)
  /-- STA, mode zpx, opcode 0x95: R144. -/
  | staZpX (d : Byte)
  /-- STX, mode zpy, opcode 0x96: R145. -/
  | stxZpY (d : Byte)
  /-- TYA, mode imp, opcode 0x98: R150. -/
  | tya
  /-- STA, mode absy, opcode 0x99: R144. -/
  | staAbsY (a : Word)
  /-- TXS, mode imp, opcode 0x9A: R152. -/
  | txs
  /-- STA, mode absx, opcode 0x9D: R144. -/
  | staAbsX (a : Word)
  /-- LDY, mode imm, opcode 0xA0: R143. -/
  | ldyImm (d : Byte)
  /-- LDA, mode indx, opcode 0xA1: R141. -/
  | ldaIndX (d : Byte)
  /-- LDX, mode imm, opcode 0xA2: R142. -/
  | ldxImm (d : Byte)
  /-- LDY, mode zp, opcode 0xA4: R143. -/
  | ldyZp (d : Byte)
  /-- LDA, mode zp, opcode 0xA5: R141. -/
  | ldaZp (d : Byte)
  /-- LDX, mode zp, opcode 0xA6: R142. -/
  | ldxZp (d : Byte)
  /-- TAY, mode imp, opcode 0xA8: R148. -/
  | tay
  /-- LDA, mode imm, opcode 0xA9: R141. -/
  | ldaImm (d : Byte)
  /-- TAX, mode imp, opcode 0xAA: R147. -/
  | tax
  /-- LDY, mode abs, opcode 0xAC: R143. -/
  | ldyAbs (a : Word)
  /-- LDA, mode abs, opcode 0xAD: R141. -/
  | ldaAbs (a : Word)
  /-- LDX, mode abs, opcode 0xAE: R142. -/
  | ldxAbs (a : Word)
  /-- BCS, mode rel, opcode 0xB0: R217. -/
  | bcs (d : Byte)
  /-- LDA, mode indy, opcode 0xB1: R141. -/
  | ldaIndY (d : Byte)
  /-- LDY, mode zpx, opcode 0xB4: R143. -/
  | ldyZpX (d : Byte)
  /-- LDA, mode zpx, opcode 0xB5: R141. -/
  | ldaZpX (d : Byte)
  /-- LDX, mode zpy, opcode 0xB6: R142. -/
  | ldxZpY (d : Byte)
  /-- CLV, mode imp, opcode 0xB8: R237. -/
  | clv
  /-- LDA, mode absy, opcode 0xB9: R141. -/
  | ldaAbsY (a : Word)
  /-- TSX, mode imp, opcode 0xBA: R151. -/
  | tsx
  /-- LDY, mode absx, opcode 0xBC: R143. -/
  | ldyAbsX (a : Word)
  /-- LDA, mode absx, opcode 0xBD: R141. -/
  | ldaAbsX (a : Word)
  /-- LDX, mode absy, opcode 0xBE: R142. -/
  | ldxAbsY (a : Word)
  /-- CPY, mode imm, opcode 0xC0: R179. -/
  | cpyImm (d : Byte)
  /-- CMP, mode indx, opcode 0xC1: R177. -/
  | cmpIndX (d : Byte)
  /-- CPY, mode zp, opcode 0xC4: R179. -/
  | cpyZp (d : Byte)
  /-- CMP, mode zp, opcode 0xC5: R177. -/
  | cmpZp (d : Byte)
  /-- DEC, mode zp, opcode 0xC6: R196. -/
  | decZp (d : Byte)
  /-- INY, mode imp, opcode 0xC8: R198. -/
  | iny
  /-- CMP, mode imm, opcode 0xC9: R177. -/
  | cmpImm (d : Byte)
  /-- DEX, mode imp, opcode 0xCA: R199. -/
  | dex
  /-- CPY, mode abs, opcode 0xCC: R179. -/
  | cpyAbs (a : Word)
  /-- CMP, mode abs, opcode 0xCD: R177. -/
  | cmpAbs (a : Word)
  /-- DEC, mode abs, opcode 0xCE: R196. -/
  | decAbs (a : Word)
  /-- BNE, mode rel, opcode 0xD0: R219. -/
  | bne (d : Byte)
  /-- CMP, mode indy, opcode 0xD1: R177. -/
  | cmpIndY (d : Byte)
  /-- CMP, mode zpx, opcode 0xD5: R177. -/
  | cmpZpX (d : Byte)
  /-- DEC, mode zpx, opcode 0xD6: R196. -/
  | decZpX (d : Byte)
  /-- CLD, mode imp, opcode 0xD8: R235. -/
  | cld
  /-- CMP, mode absy, opcode 0xD9: R177. -/
  | cmpAbsY (a : Word)
  /-- CMP, mode absx, opcode 0xDD: R177. -/
  | cmpAbsX (a : Word)
  /-- DEC, mode absx, opcode 0xDE: R196. -/
  | decAbsX (a : Word)
  /-- CPX, mode imm, opcode 0xE0: R178. -/
  | cpxImm (d : Byte)
  /-- SBC, mode indx, opcode 0xE1: R173. -/
  | sbcIndX (d : Byte)
  /-- CPX, mode zp, opcode 0xE4: R178. -/
  | cpxZp (d : Byte)
  /-- SBC, mode zp, opcode 0xE5: R173. -/
  | sbcZp (d : Byte)
  /-- INC, mode zp, opcode 0xE6: R195. -/
  | incZp (d : Byte)
  /-- INX, mode imp, opcode 0xE8: R197. -/
  | inx
  /-- SBC, mode imm, opcode 0xE9: R173. -/
  | sbcImm (d : Byte)
  /-- NOP, mode imp, opcode 0xEA: R238. -/
  | nop
  /-- CPX, mode abs, opcode 0xEC: R178. -/
  | cpxAbs (a : Word)
  /-- SBC, mode abs, opcode 0xED: R173. -/
  | sbcAbs (a : Word)
  /-- INC, mode abs, opcode 0xEE: R195. -/
  | incAbs (a : Word)
  /-- BEQ, mode rel, opcode 0xF0: R218. -/
  | beq (d : Byte)
  /-- SBC, mode indy, opcode 0xF1: R173. -/
  | sbcIndY (d : Byte)
  /-- SBC, mode zpx, opcode 0xF5: R173. -/
  | sbcZpX (d : Byte)
  /-- INC, mode zpx, opcode 0xF6: R195. -/
  | incZpX (d : Byte)
  /-- SED, mode imp, opcode 0xF8: R236. -/
  | sed
  /-- SBC, mode absy, opcode 0xF9: R173. -/
  | sbcAbsY (a : Word)
  /-- SBC, mode absx, opcode 0xFD: R173. -/
  | sbcAbsX (a : Word)
  /-- INC, mode absx, opcode 0xFE: R195. -/
  | incAbsX (a : Word)
  deriving DecidableEq, Repr

end Sys2Proof
end

