-- ==== Sys2Proof/Decode.lean ====
section
/-! DEFINITION. Decoding, total on any bytes (30_encoding.md R100 to R103), from the opcode matrix of R116; and after it
the encoder, from the `mode opcode` lists of the rules R141 to R240. -/

namespace Sys2Proof

/-- The low byte of a word (R8). -/
def loByte (w : Word) : Byte := w.setWidth 8

/-- The high byte of a word (R8). -/
def hiByte (w : Word) : Byte := (w >>> 8).setWidth 8

/-- `word(h, l) = h·256 + l` (R8). -/
def wordOf (h l : Byte) : Word := h ++ l

/-- The 56 mnemonics of the table. -/
inductive Mnemonic where
  | brk | ora | asl | php | bpl | clc | jsr | and | bit | rol | plp | bmi | sec | rti
  | eor | lsr | pha | jmp | bvc | cli | rts | adc | ror | pla | bvs | sei | sta | sty
  | stx | dey | txa | bcc | tya | txs | ldy | lda | ldx | tay | tax | bcs | clv | tsx
  | cpy | cmp | dec | iny | dex | bne | cld | cpx | sbc | inc | inx | nop | beq | sed
  deriving DecidableEq, Repr

/-- The thirteen addressing modes (R104 to R114), zero page and absolute indexed by X and by Y apart, each with its
operand. -/
inductive Mode where
  /-- Implied (R104). -/
  | imp
  /-- Accumulator (R105). -/
  | acc
  /-- Immediate (R106). -/
  | imm (d : Byte)
  /-- Zero page (R107). -/
  | zp (d : Byte)
  /-- Zero page,X (R108). -/
  | zpx (d : Byte)
  /-- Zero page,Y (R108). -/
  | zpy (d : Byte)
  /-- Absolute (R109). -/
  | abs (a : Word)
  /-- Absolute,X (R110). -/
  | absx (a : Word)
  /-- Absolute,Y (R110). -/
  | absy (a : Word)
  /-- (zp,X) (R111). -/
  | indx (d : Byte)
  /-- (zp),Y (R112). -/
  | indy (d : Byte)
  /-- (abs), JMP only (R113). -/
  | ind (a : Word)
  /-- Relative, the branches only (R114). -/
  | rel (d : Byte)
  deriving DecidableEq, Repr

/-- What follows an opcode byte (the formats of R100): how to build the instruction from its operand bytes. -/
inductive Form where
  /-- F1: no operand byte. -/
  | f1 (i : Instr)
  /-- F2: one operand byte. -/
  | f2 (mk : Byte → Instr)
  /-- F3: a 16-bit operand, low byte first (R80). -/
  | f3 (mk : Word → Instr)

/-- One row of `OPTABLE` (R101): opcode byte, cycle cost (R122), and operation with mode. -/
structure Row where
  opcode : Byte
  cycles : Nat
  form : Form

/-- Row 0x of the opcode matrix (R116). -/
def opRow0 : List Row :=
  [⟨0x00, 7, .f1 .brk⟩, ⟨0x01, 6, .f2 .oraIndX⟩, ⟨0x05, 3, .f2 .oraZp⟩,
   ⟨0x06, 5, .f2 .aslZp⟩, ⟨0x08, 3, .f1 .php⟩, ⟨0x09, 2, .f2 .oraImm⟩,
   ⟨0x0A, 2, .f1 .aslAcc⟩, ⟨0x0D, 4, .f3 .oraAbs⟩, ⟨0x0E, 6, .f3 .aslAbs⟩]

/-- Row 1x of the opcode matrix (R116). -/
def opRow1 : List Row :=
  [⟨0x10, 2, .f2 .bpl⟩, ⟨0x11, 5, .f2 .oraIndY⟩, ⟨0x15, 4, .f2 .oraZpX⟩,
   ⟨0x16, 6, .f2 .aslZpX⟩, ⟨0x18, 2, .f1 .clc⟩, ⟨0x19, 4, .f3 .oraAbsY⟩,
   ⟨0x1D, 4, .f3 .oraAbsX⟩, ⟨0x1E, 7, .f3 .aslAbsX⟩]

/-- Row 2x of the opcode matrix (R116). -/
def opRow2 : List Row :=
  [⟨0x20, 6, .f3 .jsr⟩, ⟨0x21, 6, .f2 .andIndX⟩, ⟨0x24, 3, .f2 .bitZp⟩,
   ⟨0x25, 3, .f2 .andZp⟩, ⟨0x26, 5, .f2 .rolZp⟩, ⟨0x28, 4, .f1 .plp⟩,
   ⟨0x29, 2, .f2 .andImm⟩, ⟨0x2A, 2, .f1 .rolAcc⟩, ⟨0x2C, 4, .f3 .bitAbs⟩,
   ⟨0x2D, 4, .f3 .andAbs⟩, ⟨0x2E, 6, .f3 .rolAbs⟩]

/-- Row 3x of the opcode matrix (R116). -/
def opRow3 : List Row :=
  [⟨0x30, 2, .f2 .bmi⟩, ⟨0x31, 5, .f2 .andIndY⟩, ⟨0x35, 4, .f2 .andZpX⟩,
   ⟨0x36, 6, .f2 .rolZpX⟩, ⟨0x38, 2, .f1 .sec⟩, ⟨0x39, 4, .f3 .andAbsY⟩,
   ⟨0x3D, 4, .f3 .andAbsX⟩, ⟨0x3E, 7, .f3 .rolAbsX⟩]

/-- Row 4x of the opcode matrix (R116). -/
def opRow4 : List Row :=
  [⟨0x40, 6, .f1 .rti⟩, ⟨0x41, 6, .f2 .eorIndX⟩, ⟨0x45, 3, .f2 .eorZp⟩,
   ⟨0x46, 5, .f2 .lsrZp⟩, ⟨0x48, 3, .f1 .pha⟩, ⟨0x49, 2, .f2 .eorImm⟩,
   ⟨0x4A, 2, .f1 .lsrAcc⟩, ⟨0x4C, 3, .f3 .jmpAbs⟩, ⟨0x4D, 4, .f3 .eorAbs⟩,
   ⟨0x4E, 6, .f3 .lsrAbs⟩]

/-- Row 5x of the opcode matrix (R116). -/
def opRow5 : List Row :=
  [⟨0x50, 2, .f2 .bvc⟩, ⟨0x51, 5, .f2 .eorIndY⟩, ⟨0x55, 4, .f2 .eorZpX⟩,
   ⟨0x56, 6, .f2 .lsrZpX⟩, ⟨0x58, 2, .f1 .cli⟩, ⟨0x59, 4, .f3 .eorAbsY⟩,
   ⟨0x5D, 4, .f3 .eorAbsX⟩, ⟨0x5E, 7, .f3 .lsrAbsX⟩]

/-- Row 6x of the opcode matrix (R116). -/
def opRow6 : List Row :=
  [⟨0x60, 6, .f1 .rts⟩, ⟨0x61, 6, .f2 .adcIndX⟩, ⟨0x65, 3, .f2 .adcZp⟩,
   ⟨0x66, 5, .f2 .rorZp⟩, ⟨0x68, 4, .f1 .pla⟩, ⟨0x69, 2, .f2 .adcImm⟩,
   ⟨0x6A, 2, .f1 .rorAcc⟩, ⟨0x6C, 5, .f3 .jmpInd⟩, ⟨0x6D, 4, .f3 .adcAbs⟩,
   ⟨0x6E, 6, .f3 .rorAbs⟩]

/-- Row 7x of the opcode matrix (R116). -/
def opRow7 : List Row :=
  [⟨0x70, 2, .f2 .bvs⟩, ⟨0x71, 5, .f2 .adcIndY⟩, ⟨0x75, 4, .f2 .adcZpX⟩,
   ⟨0x76, 6, .f2 .rorZpX⟩, ⟨0x78, 2, .f1 .sei⟩, ⟨0x79, 4, .f3 .adcAbsY⟩,
   ⟨0x7D, 4, .f3 .adcAbsX⟩, ⟨0x7E, 7, .f3 .rorAbsX⟩]

/-- Row 8x of the opcode matrix (R116). -/
def opRow8 : List Row :=
  [⟨0x81, 6, .f2 .staIndX⟩, ⟨0x84, 3, .f2 .styZp⟩, ⟨0x85, 3, .f2 .staZp⟩,
   ⟨0x86, 3, .f2 .stxZp⟩, ⟨0x88, 2, .f1 .dey⟩, ⟨0x8A, 2, .f1 .txa⟩,
   ⟨0x8C, 4, .f3 .styAbs⟩, ⟨0x8D, 4, .f3 .staAbs⟩, ⟨0x8E, 4, .f3 .stxAbs⟩]

/-- Row 9x of the opcode matrix (R116). -/
def opRow9 : List Row :=
  [⟨0x90, 2, .f2 .bcc⟩, ⟨0x91, 6, .f2 .staIndY⟩, ⟨0x94, 4, .f2 .styZpX⟩,
   ⟨0x95, 4, .f2 .staZpX⟩, ⟨0x96, 4, .f2 .stxZpY⟩, ⟨0x98, 2, .f1 .tya⟩,
   ⟨0x99, 5, .f3 .staAbsY⟩, ⟨0x9A, 2, .f1 .txs⟩, ⟨0x9D, 5, .f3 .staAbsX⟩]

/-- Row Ax of the opcode matrix (R116). -/
def opRowA : List Row :=
  [⟨0xA0, 2, .f2 .ldyImm⟩, ⟨0xA1, 6, .f2 .ldaIndX⟩, ⟨0xA2, 2, .f2 .ldxImm⟩,
   ⟨0xA4, 3, .f2 .ldyZp⟩, ⟨0xA5, 3, .f2 .ldaZp⟩, ⟨0xA6, 3, .f2 .ldxZp⟩,
   ⟨0xA8, 2, .f1 .tay⟩, ⟨0xA9, 2, .f2 .ldaImm⟩, ⟨0xAA, 2, .f1 .tax⟩,
   ⟨0xAC, 4, .f3 .ldyAbs⟩, ⟨0xAD, 4, .f3 .ldaAbs⟩, ⟨0xAE, 4, .f3 .ldxAbs⟩]

/-- Row Bx of the opcode matrix (R116). -/
def opRowB : List Row :=
  [⟨0xB0, 2, .f2 .bcs⟩, ⟨0xB1, 5, .f2 .ldaIndY⟩, ⟨0xB4, 4, .f2 .ldyZpX⟩,
   ⟨0xB5, 4, .f2 .ldaZpX⟩, ⟨0xB6, 4, .f2 .ldxZpY⟩, ⟨0xB8, 2, .f1 .clv⟩,
   ⟨0xB9, 4, .f3 .ldaAbsY⟩, ⟨0xBA, 2, .f1 .tsx⟩, ⟨0xBC, 4, .f3 .ldyAbsX⟩,
   ⟨0xBD, 4, .f3 .ldaAbsX⟩, ⟨0xBE, 4, .f3 .ldxAbsY⟩]

/-- Row Cx of the opcode matrix (R116). -/
def opRowC : List Row :=
  [⟨0xC0, 2, .f2 .cpyImm⟩, ⟨0xC1, 6, .f2 .cmpIndX⟩, ⟨0xC4, 3, .f2 .cpyZp⟩,
   ⟨0xC5, 3, .f2 .cmpZp⟩, ⟨0xC6, 5, .f2 .decZp⟩, ⟨0xC8, 2, .f1 .iny⟩,
   ⟨0xC9, 2, .f2 .cmpImm⟩, ⟨0xCA, 2, .f1 .dex⟩, ⟨0xCC, 4, .f3 .cpyAbs⟩,
   ⟨0xCD, 4, .f3 .cmpAbs⟩, ⟨0xCE, 6, .f3 .decAbs⟩]

/-- Row Dx of the opcode matrix (R116). -/
def opRowD : List Row :=
  [⟨0xD0, 2, .f2 .bne⟩, ⟨0xD1, 5, .f2 .cmpIndY⟩, ⟨0xD5, 4, .f2 .cmpZpX⟩,
   ⟨0xD6, 6, .f2 .decZpX⟩, ⟨0xD8, 2, .f1 .cld⟩, ⟨0xD9, 4, .f3 .cmpAbsY⟩,
   ⟨0xDD, 4, .f3 .cmpAbsX⟩, ⟨0xDE, 7, .f3 .decAbsX⟩]

/-- Row Ex of the opcode matrix (R116). -/
def opRowE : List Row :=
  [⟨0xE0, 2, .f2 .cpxImm⟩, ⟨0xE1, 6, .f2 .sbcIndX⟩, ⟨0xE4, 3, .f2 .cpxZp⟩,
   ⟨0xE5, 3, .f2 .sbcZp⟩, ⟨0xE6, 5, .f2 .incZp⟩, ⟨0xE8, 2, .f1 .inx⟩,
   ⟨0xE9, 2, .f2 .sbcImm⟩, ⟨0xEA, 2, .f1 .nop⟩, ⟨0xEC, 4, .f3 .cpxAbs⟩,
   ⟨0xED, 4, .f3 .sbcAbs⟩, ⟨0xEE, 6, .f3 .incAbs⟩]

/-- Row Fx of the opcode matrix (R116). -/
def opRowF : List Row :=
  [⟨0xF0, 2, .f2 .beq⟩, ⟨0xF1, 5, .f2 .sbcIndY⟩, ⟨0xF5, 4, .f2 .sbcZpX⟩,
   ⟨0xF6, 6, .f2 .incZpX⟩, ⟨0xF8, 2, .f1 .sed⟩, ⟨0xF9, 4, .f3 .sbcAbsY⟩,
   ⟨0xFD, 4, .f3 .sbcAbsX⟩, ⟨0xFE, 7, .f3 .incAbsX⟩]

/-- `OPTABLE` (R101, R116): 151 rows. -/
def opTable : List Row :=
  opRow0 ++ opRow1 ++ opRow2 ++ opRow3 ++ opRow4 ++ opRow5 ++ opRow6 ++ opRow7 ++
  opRow8 ++ opRow9 ++ opRowA ++ opRowB ++ opRowC ++ opRowD ++ opRowE ++ opRowF

/-- The entry of an opcode byte, none for the 105 undefined bytes (R101, R117). -/
def findRow (op : Byte) : Option Row := opTable.find? fun r => r.opcode == op

/-- What decoding answers: an instruction and the bytes after it, or a rejection by name. -/
inductive DecodeResult where
  /-- The instruction and the bytes that follow it. -/
  | ok (i : Instr) (rest : List Byte)
  /-- The opcode byte has no entry (R117). -/
  | undefinedOpcode (op : Byte)
  /-- There are fewer bytes than the instruction has. -/
  | truncated
  deriving DecidableEq, Repr

/-- Decode the bytes at the head of a list (R100, R101). -/
def decode : List Byte → DecodeResult
  | [] => .truncated
  | op :: bs =>
    match findRow op with
    | none => .undefinedOpcode op
    | some row =>
      match row.form, bs with
      | .f1 i, rest => .ok i rest
      | .f2 mk, d :: rest => .ok (mk d) rest
      | .f2 _, [] => .truncated
      | .f3 mk, l :: h :: rest => .ok (mk (wordOf h l)) rest
      | .f3 _, _ => .truncated

/-- The instruction whose bits are `w`, numbered as spec/opcode_table.json numbers them: bits 7..0 are the first byte,
bits 15..8 the second, bits 23..16 the third; the bits above `nbits` are zero. -/
def decodeTableWord (nbits w : Nat) : Option Instr :=
  let v := w % 2 ^ nbits
  match decode [BitVec.ofNat 8 v, BitVec.ofNat 8 (v / 256), BitVec.ofNat 8 (v / 65536)] with
  | .ok i _ => some i
  | .undefinedOpcode _ => none
  | .truncated => none

/-! The encoder. -/

/-- The mnemonic of an instruction's row. -/
def Instr.mnemonic : Instr → Mnemonic
  | .brk => .brk
  | .oraIndX _ => .ora
  | .oraZp _ => .ora
  | .aslZp _ => .asl
  | .php => .php
  | .oraImm _ => .ora
  | .aslAcc => .asl
  | .oraAbs _ => .ora
  | .aslAbs _ => .asl
  | .bpl _ => .bpl
  | .oraIndY _ => .ora
  | .oraZpX _ => .ora
  | .aslZpX _ => .asl
  | .clc => .clc
  | .oraAbsY _ => .ora
  | .oraAbsX _ => .ora
  | .aslAbsX _ => .asl
  | .jsr _ => .jsr
  | .andIndX _ => .and
  | .bitZp _ => .bit
  | .andZp _ => .and
  | .rolZp _ => .rol
  | .plp => .plp
  | .andImm _ => .and
  | .rolAcc => .rol
  | .bitAbs _ => .bit
  | .andAbs _ => .and
  | .rolAbs _ => .rol
  | .bmi _ => .bmi
  | .andIndY _ => .and
  | .andZpX _ => .and
  | .rolZpX _ => .rol
  | .sec => .sec
  | .andAbsY _ => .and
  | .andAbsX _ => .and
  | .rolAbsX _ => .rol
  | .rti => .rti
  | .eorIndX _ => .eor
  | .eorZp _ => .eor
  | .lsrZp _ => .lsr
  | .pha => .pha
  | .eorImm _ => .eor
  | .lsrAcc => .lsr
  | .jmpAbs _ => .jmp
  | .eorAbs _ => .eor
  | .lsrAbs _ => .lsr
  | .bvc _ => .bvc
  | .eorIndY _ => .eor
  | .eorZpX _ => .eor
  | .lsrZpX _ => .lsr
  | .cli => .cli
  | .eorAbsY _ => .eor
  | .eorAbsX _ => .eor
  | .lsrAbsX _ => .lsr
  | .rts => .rts
  | .adcIndX _ => .adc
  | .adcZp _ => .adc
  | .rorZp _ => .ror
  | .pla => .pla
  | .adcImm _ => .adc
  | .rorAcc => .ror
  | .jmpInd _ => .jmp
  | .adcAbs _ => .adc
  | .rorAbs _ => .ror
  | .bvs _ => .bvs
  | .adcIndY _ => .adc
  | .adcZpX _ => .adc
  | .rorZpX _ => .ror
  | .sei => .sei
  | .adcAbsY _ => .adc
  | .adcAbsX _ => .adc
  | .rorAbsX _ => .ror
  | .staIndX _ => .sta
  | .styZp _ => .sty
  | .staZp _ => .sta
  | .stxZp _ => .stx
  | .dey => .dey
  | .txa => .txa
  | .styAbs _ => .sty
  | .staAbs _ => .sta
  | .stxAbs _ => .stx
  | .bcc _ => .bcc
  | .staIndY _ => .sta
  | .styZpX _ => .sty
  | .staZpX _ => .sta
  | .stxZpY _ => .stx
  | .tya => .tya
  | .staAbsY _ => .sta
  | .txs => .txs
  | .staAbsX _ => .sta
  | .ldyImm _ => .ldy
  | .ldaIndX _ => .lda
  | .ldxImm _ => .ldx
  | .ldyZp _ => .ldy
  | .ldaZp _ => .lda
  | .ldxZp _ => .ldx
  | .tay => .tay
  | .ldaImm _ => .lda
  | .tax => .tax
  | .ldyAbs _ => .ldy
  | .ldaAbs _ => .lda
  | .ldxAbs _ => .ldx
  | .bcs _ => .bcs
  | .ldaIndY _ => .lda
  | .ldyZpX _ => .ldy
  | .ldaZpX _ => .lda
  | .ldxZpY _ => .ldx
  | .clv => .clv
  | .ldaAbsY _ => .lda
  | .tsx => .tsx
  | .ldyAbsX _ => .ldy
  | .ldaAbsX _ => .lda
  | .ldxAbsY _ => .ldx
  | .cpyImm _ => .cpy
  | .cmpIndX _ => .cmp
  | .cpyZp _ => .cpy
  | .cmpZp _ => .cmp
  | .decZp _ => .dec
  | .iny => .iny
  | .cmpImm _ => .cmp
  | .dex => .dex
  | .cpyAbs _ => .cpy
  | .cmpAbs _ => .cmp
  | .decAbs _ => .dec
  | .bne _ => .bne
  | .cmpIndY _ => .cmp
  | .cmpZpX _ => .cmp
  | .decZpX _ => .dec
  | .cld => .cld
  | .cmpAbsY _ => .cmp
  | .cmpAbsX _ => .cmp
  | .decAbsX _ => .dec
  | .cpxImm _ => .cpx
  | .sbcIndX _ => .sbc
  | .cpxZp _ => .cpx
  | .sbcZp _ => .sbc
  | .incZp _ => .inc
  | .inx => .inx
  | .sbcImm _ => .sbc
  | .nop => .nop
  | .cpxAbs _ => .cpx
  | .sbcAbs _ => .sbc
  | .incAbs _ => .inc
  | .beq _ => .beq
  | .sbcIndY _ => .sbc
  | .sbcZpX _ => .sbc
  | .incZpX _ => .inc
  | .sed => .sed
  | .sbcAbsY _ => .sbc
  | .sbcAbsX _ => .sbc
  | .incAbsX _ => .inc

/-- The addressing mode of an instruction, with its operand. -/
def Instr.mode : Instr → Mode
  | .brk => .imp
  | .oraIndX d => .indx d
  | .oraZp d => .zp d
  | .aslZp d => .zp d
  | .php => .imp
  | .oraImm d => .imm d
  | .aslAcc => .acc
  | .oraAbs a => .abs a
  | .aslAbs a => .abs a
  | .bpl d => .rel d
  | .oraIndY d => .indy d
  | .oraZpX d => .zpx d
  | .aslZpX d => .zpx d
  | .clc => .imp
  | .oraAbsY a => .absy a
  | .oraAbsX a => .absx a
  | .aslAbsX a => .absx a
  | .jsr a => .abs a
  | .andIndX d => .indx d
  | .bitZp d => .zp d
  | .andZp d => .zp d
  | .rolZp d => .zp d
  | .plp => .imp
  | .andImm d => .imm d
  | .rolAcc => .acc
  | .bitAbs a => .abs a
  | .andAbs a => .abs a
  | .rolAbs a => .abs a
  | .bmi d => .rel d
  | .andIndY d => .indy d
  | .andZpX d => .zpx d
  | .rolZpX d => .zpx d
  | .sec => .imp
  | .andAbsY a => .absy a
  | .andAbsX a => .absx a
  | .rolAbsX a => .absx a
  | .rti => .imp
  | .eorIndX d => .indx d
  | .eorZp d => .zp d
  | .lsrZp d => .zp d
  | .pha => .imp
  | .eorImm d => .imm d
  | .lsrAcc => .acc
  | .jmpAbs a => .abs a
  | .eorAbs a => .abs a
  | .lsrAbs a => .abs a
  | .bvc d => .rel d
  | .eorIndY d => .indy d
  | .eorZpX d => .zpx d
  | .lsrZpX d => .zpx d
  | .cli => .imp
  | .eorAbsY a => .absy a
  | .eorAbsX a => .absx a
  | .lsrAbsX a => .absx a
  | .rts => .imp
  | .adcIndX d => .indx d
  | .adcZp d => .zp d
  | .rorZp d => .zp d
  | .pla => .imp
  | .adcImm d => .imm d
  | .rorAcc => .acc
  | .jmpInd a => .ind a
  | .adcAbs a => .abs a
  | .rorAbs a => .abs a
  | .bvs d => .rel d
  | .adcIndY d => .indy d
  | .adcZpX d => .zpx d
  | .rorZpX d => .zpx d
  | .sei => .imp
  | .adcAbsY a => .absy a
  | .adcAbsX a => .absx a
  | .rorAbsX a => .absx a
  | .staIndX d => .indx d
  | .styZp d => .zp d
  | .staZp d => .zp d
  | .stxZp d => .zp d
  | .dey => .imp
  | .txa => .imp
  | .styAbs a => .abs a
  | .staAbs a => .abs a
  | .stxAbs a => .abs a
  | .bcc d => .rel d
  | .staIndY d => .indy d
  | .styZpX d => .zpx d
  | .staZpX d => .zpx d
  | .stxZpY d => .zpy d
  | .tya => .imp
  | .staAbsY a => .absy a
  | .txs => .imp
  | .staAbsX a => .absx a
  | .ldyImm d => .imm d
  | .ldaIndX d => .indx d
  | .ldxImm d => .imm d
  | .ldyZp d => .zp d
  | .ldaZp d => .zp d
  | .ldxZp d => .zp d
  | .tay => .imp
  | .ldaImm d => .imm d
  | .tax => .imp
  | .ldyAbs a => .abs a
  | .ldaAbs a => .abs a
  | .ldxAbs a => .abs a
  | .bcs d => .rel d
  | .ldaIndY d => .indy d
  | .ldyZpX d => .zpx d
  | .ldaZpX d => .zpx d
  | .ldxZpY d => .zpy d
  | .clv => .imp
  | .ldaAbsY a => .absy a
  | .tsx => .imp
  | .ldyAbsX a => .absx a
  | .ldaAbsX a => .absx a
  | .ldxAbsY a => .absy a
  | .cpyImm d => .imm d
  | .cmpIndX d => .indx d
  | .cpyZp d => .zp d
  | .cmpZp d => .zp d
  | .decZp d => .zp d
  | .iny => .imp
  | .cmpImm d => .imm d
  | .dex => .imp
  | .cpyAbs a => .abs a
  | .cmpAbs a => .abs a
  | .decAbs a => .abs a
  | .bne d => .rel d
  | .cmpIndY d => .indy d
  | .cmpZpX d => .zpx d
  | .decZpX d => .zpx d
  | .cld => .imp
  | .cmpAbsY a => .absy a
  | .cmpAbsX a => .absx a
  | .decAbsX a => .absx a
  | .cpxImm d => .imm d
  | .sbcIndX d => .indx d
  | .cpxZp d => .zp d
  | .sbcZp d => .zp d
  | .incZp d => .zp d
  | .inx => .imp
  | .sbcImm d => .imm d
  | .nop => .imp
  | .cpxAbs a => .abs a
  | .sbcAbs a => .abs a
  | .incAbs a => .abs a
  | .beq d => .rel d
  | .sbcIndY d => .indy d
  | .sbcZpX d => .zpx d
  | .incZpX d => .zpx d
  | .sed => .imp
  | .sbcAbsY a => .absy a
  | .sbcAbsX a => .absx a
  | .incAbsX a => .absx a

/-- The opcode byte of an instruction, from the `mode opcode` lists of the rules R141 to R240. -/
def Instr.opcode : Instr → Byte
  | .brk => 0x00
  | .oraIndX _ => 0x01
  | .oraZp _ => 0x05
  | .aslZp _ => 0x06
  | .php => 0x08
  | .oraImm _ => 0x09
  | .aslAcc => 0x0A
  | .oraAbs _ => 0x0D
  | .aslAbs _ => 0x0E
  | .bpl _ => 0x10
  | .oraIndY _ => 0x11
  | .oraZpX _ => 0x15
  | .aslZpX _ => 0x16
  | .clc => 0x18
  | .oraAbsY _ => 0x19
  | .oraAbsX _ => 0x1D
  | .aslAbsX _ => 0x1E
  | .jsr _ => 0x20
  | .andIndX _ => 0x21
  | .bitZp _ => 0x24
  | .andZp _ => 0x25
  | .rolZp _ => 0x26
  | .plp => 0x28
  | .andImm _ => 0x29
  | .rolAcc => 0x2A
  | .bitAbs _ => 0x2C
  | .andAbs _ => 0x2D
  | .rolAbs _ => 0x2E
  | .bmi _ => 0x30
  | .andIndY _ => 0x31
  | .andZpX _ => 0x35
  | .rolZpX _ => 0x36
  | .sec => 0x38
  | .andAbsY _ => 0x39
  | .andAbsX _ => 0x3D
  | .rolAbsX _ => 0x3E
  | .rti => 0x40
  | .eorIndX _ => 0x41
  | .eorZp _ => 0x45
  | .lsrZp _ => 0x46
  | .pha => 0x48
  | .eorImm _ => 0x49
  | .lsrAcc => 0x4A
  | .jmpAbs _ => 0x4C
  | .eorAbs _ => 0x4D
  | .lsrAbs _ => 0x4E
  | .bvc _ => 0x50
  | .eorIndY _ => 0x51
  | .eorZpX _ => 0x55
  | .lsrZpX _ => 0x56
  | .cli => 0x58
  | .eorAbsY _ => 0x59
  | .eorAbsX _ => 0x5D
  | .lsrAbsX _ => 0x5E
  | .rts => 0x60
  | .adcIndX _ => 0x61
  | .adcZp _ => 0x65
  | .rorZp _ => 0x66
  | .pla => 0x68
  | .adcImm _ => 0x69
  | .rorAcc => 0x6A
  | .jmpInd _ => 0x6C
  | .adcAbs _ => 0x6D
  | .rorAbs _ => 0x6E
  | .bvs _ => 0x70
  | .adcIndY _ => 0x71
  | .adcZpX _ => 0x75
  | .rorZpX _ => 0x76
  | .sei => 0x78
  | .adcAbsY _ => 0x79
  | .adcAbsX _ => 0x7D
  | .rorAbsX _ => 0x7E
  | .staIndX _ => 0x81
  | .styZp _ => 0x84
  | .staZp _ => 0x85
  | .stxZp _ => 0x86
  | .dey => 0x88
  | .txa => 0x8A
  | .styAbs _ => 0x8C
  | .staAbs _ => 0x8D
  | .stxAbs _ => 0x8E
  | .bcc _ => 0x90
  | .staIndY _ => 0x91
  | .styZpX _ => 0x94
  | .staZpX _ => 0x95
  | .stxZpY _ => 0x96
  | .tya => 0x98
  | .staAbsY _ => 0x99
  | .txs => 0x9A
  | .staAbsX _ => 0x9D
  | .ldyImm _ => 0xA0
  | .ldaIndX _ => 0xA1
  | .ldxImm _ => 0xA2
  | .ldyZp _ => 0xA4
  | .ldaZp _ => 0xA5
  | .ldxZp _ => 0xA6
  | .tay => 0xA8
  | .ldaImm _ => 0xA9
  | .tax => 0xAA
  | .ldyAbs _ => 0xAC
  | .ldaAbs _ => 0xAD
  | .ldxAbs _ => 0xAE
  | .bcs _ => 0xB0
  | .ldaIndY _ => 0xB1
  | .ldyZpX _ => 0xB4
  | .ldaZpX _ => 0xB5
  | .ldxZpY _ => 0xB6
  | .clv => 0xB8
  | .ldaAbsY _ => 0xB9
  | .tsx => 0xBA
  | .ldyAbsX _ => 0xBC
  | .ldaAbsX _ => 0xBD
  | .ldxAbsY _ => 0xBE
  | .cpyImm _ => 0xC0
  | .cmpIndX _ => 0xC1
  | .cpyZp _ => 0xC4
  | .cmpZp _ => 0xC5
  | .decZp _ => 0xC6
  | .iny => 0xC8
  | .cmpImm _ => 0xC9
  | .dex => 0xCA
  | .cpyAbs _ => 0xCC
  | .cmpAbs _ => 0xCD
  | .decAbs _ => 0xCE
  | .bne _ => 0xD0
  | .cmpIndY _ => 0xD1
  | .cmpZpX _ => 0xD5
  | .decZpX _ => 0xD6
  | .cld => 0xD8
  | .cmpAbsY _ => 0xD9
  | .cmpAbsX _ => 0xDD
  | .decAbsX _ => 0xDE
  | .cpxImm _ => 0xE0
  | .sbcIndX _ => 0xE1
  | .cpxZp _ => 0xE4
  | .sbcZp _ => 0xE5
  | .incZp _ => 0xE6
  | .inx => 0xE8
  | .sbcImm _ => 0xE9
  | .nop => 0xEA
  | .cpxAbs _ => 0xEC
  | .sbcAbs _ => 0xED
  | .incAbs _ => 0xEE
  | .beq _ => 0xF0
  | .sbcIndY _ => 0xF1
  | .sbcZpX _ => 0xF5
  | .incZpX _ => 0xF6
  | .sed => 0xF8
  | .sbcAbsY _ => 0xF9
  | .sbcAbsX _ => 0xFD
  | .incAbsX _ => 0xFE

/-- The operand bytes of a mode, in ascending address order (R100, R80). -/
def Mode.operandBytes : Mode → List Byte
  | .imp => []
  | .acc => []
  | .imm d => [d]
  | .zp d => [d]
  | .zpx d => [d]
  | .zpy d => [d]
  | .abs a => [loByte a, hiByte a]
  | .absx a => [loByte a, hiByte a]
  | .absy a => [loByte a, hiByte a]
  | .indx d => [d]
  | .indy d => [d]
  | .ind a => [loByte a, hiByte a]
  | .rel d => [d]

/-- The bytes of an instruction (R100). -/
def encode (i : Instr) : List Byte := i.opcode :: i.mode.operandBytes

/-- The length of an instruction in bytes (R103). -/
def Instr.length (i : Instr) : Nat := 1 + i.mode.operandBytes.length

/-- The cycle cost of an instruction: the fixed number of its row (R122, R261). -/
def Instr.cycles (i : Instr) : Nat :=
  match findRow i.opcode with
  | some row => row.cycles
  | none => 0

end Sys2Proof
end

