-- ==== Sys2Proof/WellFormed.lean ====
section
/-! DEFINITION. The checks on what enters the machine: instructions and launch parameters. -/

namespace Sys2Proof

/-- Every term of `Instr` is well formed: an operand's type is exactly its width, and "every 8-bit and
16-bit operand is legal for every opcode that takes one" (30_encoding.md R118). -/
def Instr.wellFormed (_ : Instr) : Bool := true

/-- No element occurs twice. -/
def allDistinct {α : Type} [DecidableEq α] : List α → Bool
  | [] => true
  | a :: as => !as.contains a && allDistinct as

/-- The ten register indices are pairwise distinct (R69, D11: "a binding that makes two of them equal is refused"). -/
def Params.registersDistinct (p : Params) : Bool := allDistinct p.registerIndices

/-- The three port-B bit numbers are distinct (R302, I8). -/
def Params.portBitsDistinct (p : Params) : Bool := allDistinct p.portBits

/-- The EEPROM address width is positive (R310, D35, I15). -/
def Params.eeBitsPositive (p : Params) : Bool := decide (1 ≤ p.eeBits)

/-- The boot image fills the static ROM window (R351, I3). -/
def Params.imageLongEnough (p : Params) : Bool := decide (Config.staticRom ≤ p.imageLen)

/-- The launch parameters a machine may be built from; any other binding is refused. -/
def Params.valid (p : Params) : Bool :=
  p.registersDistinct && p.portBitsDistinct && p.eeBitsPositive && p.imageLongEnough

end Sys2Proof
end

