-- ==== Sys2Proof/Machine/State.lean ====
section
/-! DEFINITION. Every piece of state the spec gives the machine (10_state.md), as plain data, its value after
construction and `reset()` (R49), and the reasons a step can stop. -/

namespace Sys2Proof.Machine

/-- Sparse storage of `w`-bit cells: (index, value) pairs, indices strictly rising, no entry zero; an unlisted index
holds 0 (log 10). -/
abbrev Cells (w : Nat) := List (Nat × BitVec w)

/-- Byte storage: RAM, display RAM, the register block, the boot image and the EEPROM array. -/
abbrev Memory := List Host.Cell

/-- The six flags (R25). -/
structure Flags where
  c : Bool
  z : Bool
  i : Bool
  d : Bool
  v : Bool
  n : Bool
  deriving DecidableEq, Repr

/-- `ee_state` (R46). -/
inductive EeMode where
  | disabled
  | command
  | address
  | read
  | write
  deriving DecidableEq, Repr

/-- The EEPROM (R46). -/
structure Eeprom where
  /-- `EE[]`: `2^EE_BITS` bytes. -/
  array : Memory
  /-- `ee_addr`: `EE_BITS` bits. -/
  addr : Nat
  /-- `ee_state`. -/
  mode : EeMode
  /-- `ee_bits`: 0..8. -/
  bits : Nat
  /-- `ee_bytes`. -/
  bytes : Nat
  /-- `ee_in`. -/
  inp : Byte
  /-- `ee_out`. -/
  out : Byte
  /-- `ee_last_clk`. -/
  lastClk : Bool
  /-- `ee_last_data`. -/
  lastData : Bool
  /-- `ee_last_pow`. -/
  lastPow : Bool
  /-- `ee_output`. -/
  output : Bool
  /-- `ee_violation`, sticky (R314). -/
  violation : Bool
  /-- The model's own: the save events emitted so far, newest last, each a copy of `EE[]` (R326, log 17). -/
  saves : List Memory
  deriving DecidableEq, Repr

/-- The machine. -/
structure State where
  /-- `A` (R21). -/
  a : Byte
  /-- `X` (R22). -/
  x : Byte
  /-- `Y` (R22). -/
  y : Byte
  /-- `S`, the stack pointer (R23). -/
  sp : Byte
  /-- `PC` (R24). -/
  pc : Word
  /-- The flags (R25). -/
  flags : Flags
  /-- `cycles`, the cycle budget (R33). -/
  cycles : Int
  /-- `halted` (R30). -/
  halted : Bool
  /-- `halt_opcode` (R30). -/
  haltOpcode : Byte
  /-- `halt_addr` (R30). -/
  haltAddr : Word
  /-- `REG[0..255]`, the stored bytes (R34). -/
  reg : Memory
  /-- `RAM[0..0x5FF]` (R44). -/
  ram : Memory
  /-- `DISP[0..0x1FF]` (R44). -/
  disp : Memory
  /-- The EEPROM (R46). -/
  ee : Eeprom
  /-- `ACC`, the access flags by bus address: bit 0 read, bit 1 write (R47, R90). -/
  acc : Cells 2
  /-- `keys`, the keypad bitmask, active low (R48). -/
  keys : BitVec 4
  /-- `figure`, the inserted figure (R48). -/
  figure : Option (List Byte)
  /-- The model's own: how many free bytes reads beyond the image have drawn (R72, log 11). -/
  freeCtr : Nat
  /-- The launch parameters (R5, R340), which nothing changes (log 1). -/
  params : Params
  deriving DecidableEq, Repr

/-- The conditions the machine surfaces. No step ends in one: R262 describes the whole state the condition leaves, and
the step goes to that state (log 13); `Sys2Proof.Safe` says that a state carries none. -/
inductive Fault where
  /-- "a distinct invalid operation condition" (R262): the byte `op` fetched at `at` as an opcode has no entry. Raised
  by fetching an undefined opcode byte; recorded in `halted`, `haltOpcode`, `haltAddr`. Safe. -/
  | invalidOperation (op : Byte) (at_ : Word)
  deriving DecidableEq, Repr

/-- The reasons for giving no meaning. -/
inductive Refusal where
  /-- An instruction without a meaning: raised by an arm of `exec`. Safe. No arm raises it. -/
  | notModelled (mnemonic : String)
  /-- Launch parameters the spec refuses: two equal register indices (R69) or port bits (I8), `EE_BITS` 0 (R310), an
  image shorter than 0x4000 bytes (I3). Raised by the step before anything else (log 14). Safe. -/
  | launchParameters
  deriving DecidableEq, Repr

/-- The flags after construction and after `reset()` (R49). -/
def Flags.clear : Flags := ⟨false, false, false, false, false, false⟩

/-- The EEPROM after construction with the persisted array `array` (R49, D24). -/
def Eeprom.construct (array : Memory) : Eeprom where
  array := array
  addr := 0
  mode := .disabled
  bits := 0
  bytes := 0
  inp := 0
  out := 0
  lastClk := true
  lastData := true
  lastPow := false
  output := true
  violation := false
  saves := []

/-- Construction, the power-on state (R340, R49, D13): from the launch parameters, the initial `RAM[]` and `DISP[]`, and
the persisted EEPROM array (empty: no store, "a freshly zeroed backing array"). It does not run `reset()`. -/
def State.construct (p : Params) (ram disp array : Memory) : State where
  a := 0
  x := 0
  y := 0
  sp := 0
  pc := 0
  flags := Flags.clear
  cycles := 0
  halted := false
  haltOpcode := 0
  haltAddr := 0
  reg := []
  ram := ram
  disp := disp
  ee := Eeprom.construct array
  acc := []
  keys := 0xF
  figure := none
  freeCtr := 0
  params := p

/-- The machine right after reset: construction with the parameters of `Params.reference`, zero RAM and display RAM, no
EEPROM store, then `reset()` (R341, R353): the word at 0xFFFC of the blank image is 0x0000, and the two vector reads
have set their access flags (logs 2, 3). `Laws/Ops.lean` proves it is `cpuReset` of that construction. -/
def State.reset : State :=
  { State.construct Params.reference [] [] [] with acc := [(0xFFFC, 1), (0xFFFD, 1)] }

/-! Updates, one per field that a step changes. -/

def State.setA (s : State) (v : Byte) : State := { s with a := v }
def State.setX (s : State) (v : Byte) : State := { s with x := v }
def State.setY (s : State) (v : Byte) : State := { s with y := v }
def State.setSp (s : State) (v : Byte) : State := { s with sp := v }
def State.setPc (s : State) (v : Word) : State := { s with pc := v }
def State.setFlags (s : State) (f : Flags) : State := { s with flags := f }
def State.setCycles (s : State) (k : Int) : State := { s with cycles := k }
def State.setHalt (s : State) (h : Bool) (op : Byte) (at_ : Word) : State :=
  { s with halted := h, haltOpcode := op, haltAddr := at_ }
def State.setReg (s : State) (m : Memory) : State := { s with reg := m }
def State.setRam (s : State) (m : Memory) : State := { s with ram := m }
def State.setDisp (s : State) (m : Memory) : State := { s with disp := m }
def State.setEe (s : State) (e : Eeprom) : State := { s with ee := e }
def State.setAcc (s : State) (m : Cells 2) : State := { s with acc := m }
def State.setFreeCtr (s : State) (k : Nat) : State := { s with freeCtr := k }

end Sys2Proof.Machine
end

