-- ==== Sys2Proof/Machine/Cells.lean ====
section
/-! DEFINITION. Reading and writing sparse storage, and its one canonical form. -/

namespace Sys2Proof.Machine

/-- The value at an index: the listed one, or 0. -/
def Cells.get {w : Nat} : Cells w → Nat → BitVec w
  | [], _ => 0
  | (k, v) :: rest, n => if n = k then v else Cells.get rest n

/-- A listing that holds `v` at index `n`, before the entries of `rest`: none where `v` is 0. -/
def Cells.cons {w : Nat} (n : Nat) (v : BitVec w) (rest : Cells w) : Cells w :=
  if v = 0 then rest else (n, v) :: rest

/-- Store `v` at index `n`, keeping the canonical form. -/
def Cells.set {w : Nat} : Cells w → Nat → BitVec w → Cells w
  | [], n, v => Cells.cons n v []
  | (k, u) :: rest, n, v =>
    if n < k then Cells.cons n v ((k, u) :: rest)
    else if n = k then Cells.cons n v rest
    else (k, u) :: Cells.set rest n v

/-- Indices strictly rising, at least `lo` and below `size`, and no entry zero. -/
def Cells.wfFrom {w : Nat} (lo size : Nat) : Cells w → Bool
  | [] => true
  | (k, v) :: rest => decide (lo ≤ k) && decide (k < size) && decide (v ≠ 0) && Cells.wfFrom (k + 1) size rest

/-- The canonical form of storage with `size` cells. -/
def Cells.wf {w : Nat} (size : Nat) (m : Cells w) : Bool := Cells.wfFrom 0 size m

/-- The byte at an offset of a memory. -/
def Memory.get (m : Memory) (n : Nat) : Byte := Cells.get m n

/-- Store a byte at an offset of a memory. -/
def Memory.set (m : Memory) (n : Nat) (v : Byte) : Memory := Cells.set m n v

/-- The canonical form of a memory of `size` bytes: offsets strictly rising and below `size`, no entry 0. -/
def Memory.wf (size : Nat) (m : Memory) : Bool := Cells.wf size m

end Sys2Proof.Machine
end

