-- ==== Sys2Proof/Machine/Eeprom.lean ====
section
/-! DEFINITION. The two-wire EEPROM state machine (65_eeprom_and_ports.md R310 to R327). `width` is `EE_BITS`. -/

namespace Sys2Proof.Machine

/-- `EE_SIZE` (R310). -/
def eeSize (width : Nat) : Nat := 2 ^ width

/-- `EE_ABYTES`, the address bytes after a write command (R310, D22). -/
def eeAddressBytes (width : Nat) : Nat := (width + 7) / 8

/-- The address after `ee_addr`, masked to the capacity (R320, R322, R323). -/
def eeNextAddr (width : Nat) (e : Eeprom) : Nat := (e.addr + 1) % eeSize width

/-- Load the output shifter with the byte at the current address and step the address (R320, R322). -/
def eeLoadOutput (width : Nat) (e : Eeprom) : Eeprom :=
  { e with out := e.array.get e.addr, addr := eeNextAddr width e }

/-- After a dispatch: drive the acknowledge level and clear the bit counter (R324); `nack` is the level. -/
def eeAcknowledge (nack : Bool) (e : Eeprom) : Eeprom := { e with output := nack, bits := 0 }

/-- Dispatch in COMMAND (R320, D21). -/
def eeDispatchCommand (width : Nat) (e : Eeprom) : Eeprom :=
  if e.inp &&& 0xF0#8 = 0xA0#8 then
    if e.inp.getLsbD 0 = false then
      eeAcknowledge false { e with mode := .address, addr := 0, bytes := 0 }
    else
      eeAcknowledge false { eeLoadOutput width e with mode := .read }
  else
    eeAcknowledge true { e with mode := .disabled }

/-- Dispatch in ADDRESS (R321, D22): most significant byte first. -/
def eeDispatchAddress (width : Nat) (e : Eeprom) : Eeprom :=
  eeAcknowledge false
    { e with
      addr := (e.addr * 256 + e.inp.toNat) % eeSize width
      bytes := e.bytes + 1
      mode := if eeAddressBytes width ≤ e.bytes + 1 then .write else .address }

/-- Dispatch in READ (R322). -/
def eeDispatchRead (width : Nat) (e : Eeprom) : Eeprom := eeAcknowledge false (eeLoadOutput width e)

/-- Dispatch in WRITE (R323). -/
def eeDispatchWrite (width : Nat) (e : Eeprom) : Eeprom :=
  eeAcknowledge false { e with array := e.array.set e.addr e.inp, addr := eeNextAddr width e }

/-- The falling edge that finds `ee_bits = 8` (R319). It does not happen in DISABLED (R316). -/
def eeDispatch (width : Nat) (e : Eeprom) : Eeprom :=
  match e.mode with
  | .disabled => e
  | .command => eeDispatchCommand width e
  | .address => eeDispatchAddress width e
  | .read => eeDispatchRead width e
  | .write => eeDispatchWrite width e

/-- START (R315): COMMAND, counters zero. -/
def eeStart (e : Eeprom) : Eeprom := { e with mode := .command, bits := 0, bytes := 0 }

/-- STOP (R315, R326): DISABLED, and a save event where the state was WRITE. -/
def eeStop (e : Eeprom) : Eeprom :=
  { e with mode := .disabled, saves := if e.mode = .write then e.saves ++ [e.array] else e.saves }

/-- A clock rise shifts the data line in, most significant bit first (R317). -/
def eeClockRise (data : Bool) (e : Eeprom) : Eeprom :=
  { e with inp := e.inp <<< 1 ||| (if data then 1#8 else 0#8) }

/-- A clock fall within a byte shifts the next output bit onto the line (R318, D20, D23). -/
def eeShiftOut (e : Eeprom) : Eeprom :=
  { e with output := e.out.getLsbD 7, out := e.out <<< 1, bits := e.bits + 1 }

/-- A clock fall (R318, R319). -/
def eeClockFall (width : Nat) (e : Eeprom) : Eeprom :=
  if e.bits < 8 then eeShiftOut e else eeDispatch width e

/-- Power lost (R312). -/
def eePowerOff (e : Eeprom) : Eeprom := { e with mode := .disabled, output := true }

/-- A powered call with an edge, after the violation test: START or STOP (R315), DISABLED (R316), the clock edges
(R317 to R319), or a data edge with the clock low (R325). `oldClk` and `oldData` are the levels of the previous call. -/
def eeEdge (width : Nat) (oldClk oldData clock data : Bool) (e : Eeprom) : Eeprom :=
  if clock && (oldData != data) then
    if data then eeStop e else eeStart e
  else if e.mode = .disabled then e
  else if !oldClk && clock then eeClockRise data e
  else if oldClk && !clock then eeClockFall width e
  else e

/-- `update(power, clock, data)` (R311): the last-seen levels are stored first (D24); then power (R312), idle (R313),
the violation flag (R314, D25) and the edges. -/
def eeUpdate (width : Nat) (power clock data : Bool) (e : Eeprom) : Eeprom :=
  let e1 := { e with lastPow := power, lastClk := clock, lastData := data }
  if !power then eePowerOff e1
  else if e.lastClk == clock && e.lastData == data then e1
  else
    let e2 := if e.lastClk != clock && e.lastData != data then { e1 with violation := true } else e1
    eeEdge width e.lastClk e.lastData clock data e2

end Sys2Proof.Machine
end

