-- ==== Sys2Proof/Machine/Flags.lean ====
section
/-! DEFINITION. The packed status byte and every flag and result computation of the instruction families (10_state.md
R27, R28; 42_arithmetic_logic.md; 43_shift_incdec.md). -/

namespace Sys2Proof.Machine

/-- A byte with bit `k` set exactly when `b`. -/
def bitByte (b : Bool) (k : Nat) : Byte := if b then 1#8 <<< k else 0#8

/-- The break bit of a pushed status byte (R27). -/
def breakBit : Byte := 0x10

/-- `P()` (R27): `N V 1 0 D I Z C`. -/
def statusByte (f : Flags) : Byte :=
  bitByte f.n 7 ||| bitByte f.v 6 ||| 0x20#8 ||| bitByte f.d 3 ||| bitByte f.i 2 ||| bitByte f.z 1 ||| bitByte f.c 0

/-- `SetP(b)` (R28): bits 5 and 4 are ignored. -/
def flagsOfByte (b : Byte) : Flags where
  c := b.getLsbD 0
  z := b.getLsbD 1
  i := b.getLsbD 2
  d := b.getLsbD 3
  v := b.getLsbD 6
  n := b.getLsbD 7

/-- `SetNZ(v)` (R9). -/
def flagsNZ (v : Byte) (f : Flags) : Flags := { f with n := v.getLsbD 7, z := v == 0#8 }

/-- A result with the flags it leaves. -/
structure AluResult where
  value : Byte
  flags : Flags
  deriving DecidableEq, Repr

/-- ADC's arithmetic (R171), of the accumulator `a` and the operand `m`; the sum is a natural number. `D` is not read
(R172, D2). -/
def addWithCarry (a m : Byte) (f : Flags) : AluResult :=
  let t := a.toNat + m.toNat + f.c.toNat
  let r := BitVec.ofNat 8 t
  { value := r
    flags := flagsNZ r { f with v := ((a ^^^ r) &&& (m ^^^ r) &&& 0x80#8) != 0#8, c := decide (0xFF < t) } }

/-- SBC's arithmetic (R173): ADC of the operand's complement. -/
def subWithBorrow (a m : Byte) (f : Flags) : AluResult := addWithCarry a (m ^^^ 0xFF#8) f

/-- AND (R174). -/
def andResult (a m : Byte) (f : Flags) : AluResult := ⟨a &&& m, flagsNZ (a &&& m) f⟩

/-- ORA (R175). -/
def orResult (a m : Byte) (f : Flags) : AluResult := ⟨a ||| m, flagsNZ (a ||| m) f⟩

/-- EOR (R176). -/
def eorResult (a m : Byte) (f : Flags) : AluResult := ⟨a ^^^ m, flagsNZ (a ^^^ m) f⟩

/-- The flags of CMP, CPX and CPY (R177 to R179), of the register `r` and the operand `m`. -/
def compareFlags (r m : Byte) (f : Flags) : Flags :=
  flagsNZ (r - m) { f with c := decide (m.toNat ≤ r.toNat) }

/-- The flags of BIT (R180). -/
def bitFlags (a m : Byte) (f : Flags) : Flags :=
  { f with z := (a &&& m) == 0#8, n := m.getLsbD 7, v := m.getLsbD 6 }

/-- ASL (R191). -/
def shiftLeft (m : Byte) (f : Flags) : AluResult :=
  let r := m <<< 1
  ⟨r, flagsNZ r { f with c := m.getLsbD 7 }⟩

/-- LSR (R192). -/
def shiftRight (m : Byte) (f : Flags) : AluResult :=
  let r := m >>> 1
  ⟨r, flagsNZ r { f with c := m.getLsbD 0 }⟩

/-- ROL (R193): the carry enters at bit 0. -/
def rotateLeft (m : Byte) (f : Flags) : AluResult :=
  let r := m <<< 1 ||| bitByte f.c 0
  ⟨r, flagsNZ r { f with c := m.getLsbD 7 }⟩

/-- ROR (R194): the carry enters at bit 7. -/
def rotateRight (m : Byte) (f : Flags) : AluResult :=
  let r := m >>> 1 ||| bitByte f.c 7
  ⟨r, flagsNZ r { f with c := m.getLsbD 0 }⟩

/-- INC, INX, INY (R195, R197, R198): `C` and `V` stay. -/
def increment (m : Byte) (f : Flags) : AluResult := ⟨m + 1, flagsNZ (m + 1) f⟩

/-- DEC, DEX, DEY (R196, R199, R200): `C` and `V` stay. -/
def decrement (m : Byte) (f : Flags) : AluResult := ⟨m - 1, flagsNZ (m - 1) f⟩

end Sys2Proof.Machine
end

