-- ==== Sys2Proof/Machine/Ops.lean ====
section
/-! DEFINITION. The memory bus (20_memory.md), the interrupt controller's registers and vectors (60_exceptions.md §4),
port B's glue (65_eeprom_and_ports.md §1), the stack (41_stack.md), and taking and leaving an exception
(60_exceptions.md §2, §3; 45_flags_system.md R240; 70_reset_and_hazards.md R341). -/

namespace Sys2Proof.Machine

/-! Registers by role. -/

/-- `REG[r]`, the stored byte (R34). -/
def regByte (s : State) (r : Byte) : Byte := s.reg.get r.toNat

/-- `REG[r] <- v`, the storage alone. -/
def storeReg (s : State) (r v : Byte) : State := s.setReg (s.reg.set r.toNat v)

/-- `IRQEN` (R36, D12). -/
def irqEn (s : State) : Word := wordOf (regByte s s.params.regIrqEnHi) (regByte s s.params.regIrqEnLo)

/-- `IRQPEND` (R37, D12). -/
def irqPend (s : State) : Word := wordOf (regByte s s.params.regIrqPendHi) (regByte s s.params.regIrqPendLo)

/-! The interrupt vectors. -/

/-- `VEC[k]`, the vector word of line `k`, from the image (R270). -/
def vec (p : Params) (k : Nat) : Word :=
  wordOf (Memory.get p.image (Config.vectabOff + 1 + 2 * k)) (Memory.get p.image (Config.vectabOff + 2 * k))

/-- The highest-priority line of a pending mask: line `k` is bit `15 − k`, line 0 first (R271, R11). -/
def topLine (m : Word) : Option Nat := (List.range 16).find? fun k => m.getLsbD (15 - k)

/-- `PRI[m]` (R43, R270, D9). -/
def pri (p : Params) (m : Word) : Word :=
  match topLine m with
  | none => p.vectorIdle
  | some k => vec p k

/-! The address decoder (R64, R65). -/

/-- What a bus address selects. -/
inductive Target where
  /-- System RAM at a backing offset (R66). -/
  | ram (off : Nat)
  /-- Display RAM at a backing offset (R67). -/
  | disp (off : Nat)
  /-- A control register (R68). -/
  | reg (r : Byte)
  /-- The boot image at an offset, through either ROM window (R70, R73). -/
  | rom (off : Nat)
  /-- 0xFFFE (R74). -/
  | vectorLow
  /-- 0xFFFF (R74). -/
  | vectorHigh
  deriving DecidableEq, Repr

/-- The ROM bank shown in the window (R35, R70). -/
def bank (s : State) : Nat := (regByte s s.params.regBank).toNat % Config.bankCount

/-- `Decode(addr)` (R65). -/
def decodeAddr (s : State) (a : Word) : Target :=
  let n := a.toNat
  if n ≤ 0x0FFF then .ram (n % Config.ramSize)
  else if n ≤ 0x2FFF then .disp ((n - 0x1000) % Config.dispSize)
  else if n ≤ 0x3FFF then .reg (loByte a)
  else if n ≤ 0xBFFF then .rom (Config.bankWindow * bank s + (n - 0x4000))
  else if n ≤ 0xFFFD then .rom (n - 0xC000)
  else if n = 0xFFFE then .vectorLow
  else .vectorHigh

/-! Port B and the register block. -/

/-- `PortBLines()` (R301, D18). -/
def portBLines (s : State) : Byte :=
  (regByte s s.params.regPbDir &&& regByte s s.params.regPbData) ||| ~~~ regByte s s.params.regPbDir

/-- `PortBPins()` (R304, D19). -/
def portBPins (s : State) : Byte :=
  let dir := regByte s s.params.regPbDir
  let inputs := if s.ee.output then 0xFF#8 else ~~~ (1#8 <<< s.params.pbDataBit.val)
  (dir &&& regByte s s.params.regPbData) ||| (~~~ dir &&& inputs)

/-- `PortBUpdate()` (R303). -/
def portBUpdate (s : State) : State :=
  let l := portBLines s
  s.setEe (eeUpdate s.params.eeBits (l.getLsbD s.params.pbPowerBit.val) (l.getLsbD s.params.pbClockBit.val)
    (l.getLsbD s.params.pbDataBit.val) s.ee)

/-- The port-A bit of key `k` if the key is pressed (R330); `keys` is active low (R48). -/
def pressedKey (keys : BitVec 4) (k : Fin 4) : Byte :=
  if keys.getLsbD k.val then 0#8 else 1#8 <<< (Config.portAKeyBit k).val

/-- The port-A bits of all pressed keys (R330). -/
def pressedKeys (keys : BitVec 4) : Byte :=
  pressedKey keys 0 ||| pressedKey keys 1 ||| pressedKey keys 2 ||| pressedKey keys 3

/-- The register file as 256 bytes, index 0 first: the third argument of `PORTA_IN` (R330). -/
def regBytes (s : State) : List Byte := (List.range Config.numRegs).map fun n => s.reg.get n

/-- `PORTA_IN(keys, figure, REG)` (R330, D30): of the figure its presence alone, and a pressed key reads as 0 in its
bit. -/
def portAIn (s : State) : Byte := Config.portAIn s.keys s.figure.isSome (regBytes s) &&& ~~~ pressedKeys s.keys

/-- A register's read behaviour (R69). -/
def regRead (s : State) (r : Byte) : Byte :=
  if r = s.params.regPbData then portBPins s
  else if r = s.params.regPaData then portAIn s
  else if r = s.params.regFF then 0xFF#8
  else regByte s r

/-- A register's write behaviour (R69). -/
def regWrite (s : State) (r v : Byte) : State :=
  if r = s.params.regIrqPendHi ∨ r = s.params.regIrqPendLo then storeReg s r (regByte s r &&& ~~~ v)
  else if r = s.params.regPbDir ∨ r = s.params.regPbData then portBUpdate (storeReg s r v)
  else storeReg s r v

/-! The two bus primitives. -/

/-- Does the image hold an offset (R72)? -/
def inImage (s : State) (off : Nat) : Bool := decide (off < s.params.imageLen)

/-- The image byte at an offset; beyond `IMAGE_LEN`, the next free byte (R72, D14). -/
def imageByte (s : State) (off : Nat) : Byte :=
  if inImage s off then Memory.get s.params.image off else Config.freeByte s.freeCtr

/-- The byte a read of `a` returns, with no trace of the read: an observer's read (R90). -/
def peek (s : State) (a : Word) : Byte :=
  match decodeAddr s a with
  | .ram off => s.ram.get off
  | .disp off => s.disp.get off
  | .reg r => regRead s r
  | .rom off => imageByte s off
  | .vectorLow => loByte (pri s.params (irqPend s))
  | .vectorHigh => hiByte (pri s.params (irqPend s))

/-- Set access flags of a bus address (R90, D15). -/
def markAccess (bits : BitVec 2) (s : State) (a : Word) : State :=
  s.setAcc (Cells.set s.acc a.toNat (Cells.get s.acc a.toNat ||| bits))

/-- A read beyond the image has drawn its free byte (R72). -/
def drawFree (s : State) (a : Word) : State :=
  match decodeAddr s a with
  | .rom off => if inImage s off then s else s.setFreeCtr (s.freeCtr + 1)
  | .ram _ => s
  | .disp _ => s
  | .reg _ => s
  | .vectorLow => s
  | .vectorHigh => s

/-- `MemRead(a, 1)` (R62): the byte and the state after it. -/
def busRead (s : State) (a : Word) : Byte × State := (peek s a, drawFree (markAccess 1 s a) a)

/-- The write behaviour of the region that owns `a` (R63, R75): ROM and the two vector addresses discard. -/
def writeCell (s : State) (a : Word) (v : Byte) : State :=
  match decodeAddr s a with
  | .ram off => s.setRam (s.ram.set off v)
  | .disp off => s.setDisp (s.disp.set off v)
  | .reg r => regWrite s r v
  | .rom _ => s
  | .vectorLow => s
  | .vectorHigh => s

/-- `MemWrite(a, 1, v)` (R63, D33): the access flag, then the store with its side effect. -/
def busWrite (s : State) (a : Word) (v : Byte) : State := writeCell (markAccess 2 s a) a v

/-- `MemRead16(a)` (R9, R84): low byte first, then the high byte at `a + 1` modulo 0x10000. -/
def busRead16 (s : State) (a : Word) : Word × State :=
  let l := busRead s a
  let h := busRead l.2 (a + 1)
  (wordOf h.1 l.1, h.2)

/-- `Fetch8()` (R9). -/
def fetch8 (s : State) : Byte × State :=
  let b := busRead s s.pc
  (b.1, b.2.setPc (s.pc + 1))

/-! The stack. -/

/-- The bus address of the stack byte that `S` designates (R23). -/
def stackAddr (sp : Byte) : Word := 0x0100#16 + sp.setWidth 16

/-- `Push(v)` (R160). -/
def push (v : Byte) (s : State) : State := (busWrite s (stackAddr s.sp) v).setSp (s.sp - 1)

/-- `Pull()` (R161). -/
def pull (s : State) : Byte × State :=
  let s1 := s.setSp (s.sp + 1)
  busRead s1 (stackAddr s1.sp)

/-- Push a word, high byte first (R167). -/
def pushWord (w : Word) (s : State) : State := push (loByte w) (push (hiByte w) s)

/-- Pull a word, low byte first (R214, R240). -/
def pullWord (s : State) : Word × State :=
  let l := pull s
  let h := pull l.2
  (wordOf h.1 l.1, h.2)

/-! Flags and registers. -/

/-- `SetNZ(v)` on the state (R9). -/
def setNZ (v : Byte) (s : State) : State := s.setFlags (flagsNZ v s.flags)

/-- `I <- b`. -/
def setI (b : Bool) (s : State) : State := s.setFlags { s.flags with i := b }

/-! Taking an exception and returning from it. -/

/-- What every entry does (R265, R266): push `PC` high, `PC` low and the status byte `status`, then load `PC` from the
word at the bus address `vector`. -/
def enterInterrupt (status : Byte) (vector : Word) (s : State) : State :=
  let v := busRead16 (push status (pushWord s.pc s)) vector
  v.2.setPc v.1

/-- The bus address of the NMI vector (R76). -/
def nmiVector : Word := 0xFFFA
/-- The bus address of the reset vector (R76). -/
def resetVector : Word := 0xFFFC
/-- The bus address of the IRQ and BRK vector (R76). -/
def irqVector : Word := 0xFFFE

/-- `nmi()` (R265): the break bit clear, `I` unchanged. -/
def nmi (s : State) : State := enterInterrupt (statusByte s.flags) nmiVector s

/-- `irq(fromBreak)` (R266): the break bit only from BRK, and `I` set after the status is pushed. -/
def irq (fromBreak : Bool) (s : State) : State :=
  let status := if fromBreak then statusByte s.flags ||| breakBit else statusByte s.flags
  setI true (enterInterrupt status irqVector s)

/-- What RTI does (R240): the flags, then `PC`, from the stack. -/
def returnFromInterrupt (s : State) : State :=
  let p := pull s
  let w := pullWord (p.2.setFlags (flagsOfByte p.1))
  w.2.setPc w.1

/-- `InvalidOperation(op, at)` (R262): the engine halts and records the byte and its address. -/
def invalidOperation (op : Byte) (at_ : Word) (s : State) : State := s.setHalt true op at_

/-- `reset()` (R341): the CPU registers, flags, cycle budget and `halted`; nothing else but the two vector reads'
access flags. `halt_opcode` and `halt_addr` keep their values (log 8). -/
def cpuReset (s : State) : State :=
  let v := busRead16 s resetVector
  { v.2 with pc := v.1, a := 0, x := 0, y := 0, sp := 0, flags := Flags.clear, cycles := 0, halted := false }

end Sys2Proof.Machine
end

