-- ==== Sys2Proof/Machine/Operands.lean ====
section
/-! DEFINITION. The addressing modes (30_encoding.md R102 to R115) and operand access (00_scope.md R9). The operand bytes
themselves have been fetched by the step, so `PC` is the address of the next instruction here (R24). -/

namespace Sys2Proof.Machine

/-- An operand location (R9, R102): a bus address, the accumulator sentinel, or the immediate byte, which the fetch has
already read from its bus address (R106, log 15). -/
inductive Operand where
  | mem (addr : Word)
  | acc
  | imm (byte : Byte)
  deriving DecidableEq, Repr

/-- The bus address of a zero-page byte (R107). -/
def zeroPage (d : Byte) : Word := d.setWidth 16

/-- Zero page indexed: the sum wraps in page 0 (R108, D5). -/
def zeroPageIndexed (d index : Byte) : Word := zeroPage (d + index)

/-- Absolute indexed: a 16-bit sum that wraps (R110). -/
def absIndexed (a : Word) (index : Byte) : Word := a + index.setWidth 16

/-- The target of a branch: the offset sign-extended and added to `PC` (R114). -/
def relTarget (d : Byte) (pc : Word) : Word := pc + d.signExtend 16

/-- A pointer in page zero, low byte first, the high byte's address wrapping in page 0 (R111, R112, D5). -/
def zeroPagePointer (z : Byte) (s : State) : Word × State :=
  let l := busRead s (zeroPage z)
  let h := busRead l.2 (zeroPage (z + 1))
  (wordOf h.1 l.1, h.2)

/-- `Resolve(mode)` (R102 to R114): the location, and the state after the pointer reads of the indirect modes. -/
def resolve (m : Mode) (s : State) : Operand × State :=
  match m with
  | .imp => (.acc, s)
  | .acc => (.acc, s)
  | .imm d => (.imm d, s)
  | .zp d => (.mem (zeroPage d), s)
  | .zpx d => (.mem (zeroPageIndexed d s.x), s)
  | .zpy d => (.mem (zeroPageIndexed d s.y), s)
  | .abs a => (.mem a, s)
  | .absx a => (.mem (absIndexed a s.x), s)
  | .absy a => (.mem (absIndexed a s.y), s)
  | .indx d =>
    let p := zeroPagePointer (d + s.x) s
    (.mem p.1, p.2)
  | .indy d =>
    let p := zeroPagePointer d s
    (.mem (absIndexed p.1 s.y), p.2)
  | .ind a =>
    let p := busRead16 s a
    (.mem p.1, p.2)
  | .rel d => (.mem (relTarget d s.pc), s)

/-- `OpRead(loc)` (R9). -/
def opRead (loc : Operand) (s : State) : Byte × State :=
  match loc with
  | .mem a => busRead s a
  | .acc => (s.a, s)
  | .imm b => (b, s)

/-- `OpWrite(loc, v)` (R9). No instruction writes an immediate location (R106). -/
def opWrite (loc : Operand) (v : Byte) (s : State) : State :=
  match loc with
  | .mem a => busWrite s a v
  | .acc => s.setA v
  | .imm _ => s

/-- Resolve a mode and read the operand: the byte and the state after the reads. -/
def readOperand (m : Mode) (s : State) : Byte × State :=
  let loc := resolve m s
  opRead loc.1 loc.2

/-- `PC <- target`, of a location that a control-flow mode resolved to; it is never dereferenced (R102). -/
def jumpTo (loc : Operand) (s : State) : State :=
  match loc with
  | .mem t => s.setPc t
  | .acc => s
  | .imm _ => s

/-- What a meaning answers. -/
abbrev Answer := Host.Outcome State Fault Refusal

end Sys2Proof.Machine
end

