-- ==== Sys2Proof/Machine/Alu.lean ====
section
/-! DEFINITION. Arithmetic, logic, compare and bit test (42_arithmetic_logic.md R170 to R181). -/

namespace Sys2Proof.Machine

/-- An ALU operation on `A` and the operand (R170): one data read, the result into `A`. -/
def alu (op : Byte → Byte → Flags → AluResult) (m : Mode) (s : State) : Answer :=
  let v := readOperand m s
  let r := op v.2.a v.1 v.2.flags
  .next ((v.2.setA r.value).setFlags r.flags)

/-- An operation on the operand that writes flags alone (R170, R177 to R180). -/
def flagsOnly (op : Byte → Flags → Flags) (m : Mode) (s : State) : Answer :=
  let v := readOperand m s
  .next (v.2.setFlags (op v.1 v.2.flags))

/-- ADC indx (R171, R111). -/
def execAdcIndX (d : Byte) (s : State) : Answer := alu addWithCarry (.indx d) s

/-- ADC zp (R171, R107). -/
def execAdcZp (d : Byte) (s : State) : Answer := alu addWithCarry (.zp d) s

/-- ADC imm (R171, R106). -/
def execAdcImm (d : Byte) (s : State) : Answer := alu addWithCarry (.imm d) s

/-- ADC abs (R171, R109). -/
def execAdcAbs (a : Word) (s : State) : Answer := alu addWithCarry (.abs a) s

/-- ADC indy (R171, R112). -/
def execAdcIndY (d : Byte) (s : State) : Answer := alu addWithCarry (.indy d) s

/-- ADC zpx (R171, R108). -/
def execAdcZpX (d : Byte) (s : State) : Answer := alu addWithCarry (.zpx d) s

/-- ADC absy (R171, R110). -/
def execAdcAbsY (a : Word) (s : State) : Answer := alu addWithCarry (.absy a) s

/-- ADC absx (R171, R110). -/
def execAdcAbsX (a : Word) (s : State) : Answer := alu addWithCarry (.absx a) s

/-- SBC indx (R173, R111). -/
def execSbcIndX (d : Byte) (s : State) : Answer := alu subWithBorrow (.indx d) s

/-- SBC zp (R173, R107). -/
def execSbcZp (d : Byte) (s : State) : Answer := alu subWithBorrow (.zp d) s

/-- SBC imm (R173, R106). -/
def execSbcImm (d : Byte) (s : State) : Answer := alu subWithBorrow (.imm d) s

/-- SBC abs (R173, R109). -/
def execSbcAbs (a : Word) (s : State) : Answer := alu subWithBorrow (.abs a) s

/-- SBC indy (R173, R112). -/
def execSbcIndY (d : Byte) (s : State) : Answer := alu subWithBorrow (.indy d) s

/-- SBC zpx (R173, R108). -/
def execSbcZpX (d : Byte) (s : State) : Answer := alu subWithBorrow (.zpx d) s

/-- SBC absy (R173, R110). -/
def execSbcAbsY (a : Word) (s : State) : Answer := alu subWithBorrow (.absy a) s

/-- SBC absx (R173, R110). -/
def execSbcAbsX (a : Word) (s : State) : Answer := alu subWithBorrow (.absx a) s

/-- AND indx (R174, R111). -/
def execAndIndX (d : Byte) (s : State) : Answer := alu andResult (.indx d) s

/-- AND zp (R174, R107). -/
def execAndZp (d : Byte) (s : State) : Answer := alu andResult (.zp d) s

/-- AND imm (R174, R106). -/
def execAndImm (d : Byte) (s : State) : Answer := alu andResult (.imm d) s

/-- AND abs (R174, R109). -/
def execAndAbs (a : Word) (s : State) : Answer := alu andResult (.abs a) s

/-- AND indy (R174, R112). -/
def execAndIndY (d : Byte) (s : State) : Answer := alu andResult (.indy d) s

/-- AND zpx (R174, R108). -/
def execAndZpX (d : Byte) (s : State) : Answer := alu andResult (.zpx d) s

/-- AND absy (R174, R110). -/
def execAndAbsY (a : Word) (s : State) : Answer := alu andResult (.absy a) s

/-- AND absx (R174, R110). -/
def execAndAbsX (a : Word) (s : State) : Answer := alu andResult (.absx a) s

/-- ORA indx (R175, R111). -/
def execOraIndX (d : Byte) (s : State) : Answer := alu orResult (.indx d) s

/-- ORA zp (R175, R107). -/
def execOraZp (d : Byte) (s : State) : Answer := alu orResult (.zp d) s

/-- ORA imm (R175, R106). -/
def execOraImm (d : Byte) (s : State) : Answer := alu orResult (.imm d) s

/-- ORA abs (R175, R109). -/
def execOraAbs (a : Word) (s : State) : Answer := alu orResult (.abs a) s

/-- ORA indy (R175, R112). -/
def execOraIndY (d : Byte) (s : State) : Answer := alu orResult (.indy d) s

/-- ORA zpx (R175, R108). -/
def execOraZpX (d : Byte) (s : State) : Answer := alu orResult (.zpx d) s

/-- ORA absy (R175, R110). -/
def execOraAbsY (a : Word) (s : State) : Answer := alu orResult (.absy a) s

/-- ORA absx (R175, R110). -/
def execOraAbsX (a : Word) (s : State) : Answer := alu orResult (.absx a) s

/-- EOR indx (R176, R111). -/
def execEorIndX (d : Byte) (s : State) : Answer := alu eorResult (.indx d) s

/-- EOR zp (R176, R107). -/
def execEorZp (d : Byte) (s : State) : Answer := alu eorResult (.zp d) s

/-- EOR imm (R176, R106). -/
def execEorImm (d : Byte) (s : State) : Answer := alu eorResult (.imm d) s

/-- EOR abs (R176, R109). -/
def execEorAbs (a : Word) (s : State) : Answer := alu eorResult (.abs a) s

/-- EOR indy (R176, R112). -/
def execEorIndY (d : Byte) (s : State) : Answer := alu eorResult (.indy d) s

/-- EOR zpx (R176, R108). -/
def execEorZpX (d : Byte) (s : State) : Answer := alu eorResult (.zpx d) s

/-- EOR absy (R176, R110). -/
def execEorAbsY (a : Word) (s : State) : Answer := alu eorResult (.absy a) s

/-- EOR absx (R176, R110). -/
def execEorAbsX (a : Word) (s : State) : Answer := alu eorResult (.absx a) s

/-- CMP indx (R177, R111). -/
def execCmpIndX (d : Byte) (s : State) : Answer := flagsOnly (compareFlags s.a) (.indx d) s

/-- CMP zp (R177, R107). -/
def execCmpZp (d : Byte) (s : State) : Answer := flagsOnly (compareFlags s.a) (.zp d) s

/-- CMP imm (R177, R106). -/
def execCmpImm (d : Byte) (s : State) : Answer := flagsOnly (compareFlags s.a) (.imm d) s

/-- CMP abs (R177, R109). -/
def execCmpAbs (a : Word) (s : State) : Answer := flagsOnly (compareFlags s.a) (.abs a) s

/-- CMP indy (R177, R112). -/
def execCmpIndY (d : Byte) (s : State) : Answer := flagsOnly (compareFlags s.a) (.indy d) s

/-- CMP zpx (R177, R108). -/
def execCmpZpX (d : Byte) (s : State) : Answer := flagsOnly (compareFlags s.a) (.zpx d) s

/-- CMP absy (R177, R110). -/
def execCmpAbsY (a : Word) (s : State) : Answer := flagsOnly (compareFlags s.a) (.absy a) s

/-- CMP absx (R177, R110). -/
def execCmpAbsX (a : Word) (s : State) : Answer := flagsOnly (compareFlags s.a) (.absx a) s

/-- CPX imm (R178, R106). -/
def execCpxImm (d : Byte) (s : State) : Answer := flagsOnly (compareFlags s.x) (.imm d) s

/-- CPX zp (R178, R107). -/
def execCpxZp (d : Byte) (s : State) : Answer := flagsOnly (compareFlags s.x) (.zp d) s

/-- CPX abs (R178, R109). -/
def execCpxAbs (a : Word) (s : State) : Answer := flagsOnly (compareFlags s.x) (.abs a) s

/-- CPY imm (R179, R106). -/
def execCpyImm (d : Byte) (s : State) : Answer := flagsOnly (compareFlags s.y) (.imm d) s

/-- CPY zp (R179, R107). -/
def execCpyZp (d : Byte) (s : State) : Answer := flagsOnly (compareFlags s.y) (.zp d) s

/-- CPY abs (R179, R109). -/
def execCpyAbs (a : Word) (s : State) : Answer := flagsOnly (compareFlags s.y) (.abs a) s

/-- BIT zp (R180, R107). -/
def execBitZp (d : Byte) (s : State) : Answer := flagsOnly (bitFlags s.a) (.zp d) s

/-- BIT abs (R180, R109). -/
def execBitAbs (a : Word) (s : State) : Answer := flagsOnly (bitFlags s.a) (.abs a) s

end Sys2Proof.Machine
end

