-- ==== Sys2Proof/Machine/Control.lean ====
section
/-! DEFINITION. Jumps, subroutines and branches (44_control_flow.md R210 to R223). -/

namespace Sys2Proof.Machine

/-- A jump to the location of its mode (R211, R212). -/
def jump (m : Mode) (s : State) : Answer :=
  let loc := resolve m s
  .next (jumpTo loc.1 loc.2)

/-- A conditional branch (R215). -/
def branch (cond : Bool) (d : Byte) (s : State) : Answer :=
  let loc := resolve (.rel d) s
  .next (if cond then jumpTo loc.1 loc.2 else loc.2)

/-- JMP abs (R211, R109). -/
def execJmpAbs (a : Word) (s : State) : Answer := jump (.abs a) s

/-- JMP ind (R212, R113). -/
def execJmpInd (a : Word) (s : State) : Answer := jump (.ind a) s

/-- JSR (R213): push the address of its third byte, `PC − 1` after the fetch, then jump. -/
def execJsr (a : Word) (s : State) : Answer :=
  let loc := resolve (.abs a) s
  .next (jumpTo loc.1 (pushWord (loc.2.pc - 1) loc.2))

/-- RTS (R214): the pulled word plus one. -/
def execRts (s : State) : Answer :=
  let w := pullWord s
  .next (w.2.setPc (w.1 + 1))

/-- BCC rel (R216, R114). -/
def execBcc (d : Byte) (s : State) : Answer := branch (!s.flags.c) d s

/-- BCS rel (R217, R114). -/
def execBcs (d : Byte) (s : State) : Answer := branch s.flags.c d s

/-- BEQ rel (R218, R114). -/
def execBeq (d : Byte) (s : State) : Answer := branch s.flags.z d s

/-- BNE rel (R219, R114). -/
def execBne (d : Byte) (s : State) : Answer := branch (!s.flags.z) d s

/-- BMI rel (R220, R114). -/
def execBmi (d : Byte) (s : State) : Answer := branch s.flags.n d s

/-- BPL rel (R221, R114). -/
def execBpl (d : Byte) (s : State) : Answer := branch (!s.flags.n) d s

/-- BVC rel (R222, R114). -/
def execBvc (d : Byte) (s : State) : Answer := branch (!s.flags.v) d s

/-- BVS rel (R223, R114). -/
def execBvs (d : Byte) (s : State) : Answer := branch s.flags.v d s

end Sys2Proof.Machine
end

