-- ==== Sys2Proof/Machine/LoadStore.lean ====
section
/-! DEFINITION. Loads, stores and register transfers (40_load_store_transfer.md R140 to R153). -/

namespace Sys2Proof.Machine

/-- A load (R140 to R143): one data read into the register that `put` writes, `N` and `Z` from it. -/
def load (put : State → Byte → State) (m : Mode) (s : State) : Answer :=
  let v := readOperand m s
  .next (setNZ v.1 (put v.2 v.1))

/-- A store (R140, R144 to R146): one data write of `v`, no flag. -/
def store (v : Byte) (m : Mode) (s : State) : Answer :=
  let loc := resolve m s
  .next (opWrite loc.1 v loc.2)

/-- A transfer that sets `N` and `Z` (R147 to R151): no bus access. -/
def transfer (put : State → Byte → State) (v : Byte) (s : State) : Answer := .next (setNZ v (put s v))

/-- LDA indx (R141, R111). -/
def execLdaIndX (d : Byte) (s : State) : Answer := load State.setA (.indx d) s

/-- LDA zp (R141, R107). -/
def execLdaZp (d : Byte) (s : State) : Answer := load State.setA (.zp d) s

/-- LDA imm (R141, R106). -/
def execLdaImm (d : Byte) (s : State) : Answer := load State.setA (.imm d) s

/-- LDA abs (R141, R109). -/
def execLdaAbs (a : Word) (s : State) : Answer := load State.setA (.abs a) s

/-- LDA indy (R141, R112). -/
def execLdaIndY (d : Byte) (s : State) : Answer := load State.setA (.indy d) s

/-- LDA zpx (R141, R108). -/
def execLdaZpX (d : Byte) (s : State) : Answer := load State.setA (.zpx d) s

/-- LDA absy (R141, R110). -/
def execLdaAbsY (a : Word) (s : State) : Answer := load State.setA (.absy a) s

/-- LDA absx (R141, R110). -/
def execLdaAbsX (a : Word) (s : State) : Answer := load State.setA (.absx a) s

/-- LDX imm (R142, R106). -/
def execLdxImm (d : Byte) (s : State) : Answer := load State.setX (.imm d) s

/-- LDX zp (R142, R107). -/
def execLdxZp (d : Byte) (s : State) : Answer := load State.setX (.zp d) s

/-- LDX abs (R142, R109). -/
def execLdxAbs (a : Word) (s : State) : Answer := load State.setX (.abs a) s

/-- LDX zpy (R142, R108). -/
def execLdxZpY (d : Byte) (s : State) : Answer := load State.setX (.zpy d) s

/-- LDX absy (R142, R110). -/
def execLdxAbsY (a : Word) (s : State) : Answer := load State.setX (.absy a) s

/-- LDY imm (R143, R106). -/
def execLdyImm (d : Byte) (s : State) : Answer := load State.setY (.imm d) s

/-- LDY zp (R143, R107). -/
def execLdyZp (d : Byte) (s : State) : Answer := load State.setY (.zp d) s

/-- LDY abs (R143, R109). -/
def execLdyAbs (a : Word) (s : State) : Answer := load State.setY (.abs a) s

/-- LDY zpx (R143, R108). -/
def execLdyZpX (d : Byte) (s : State) : Answer := load State.setY (.zpx d) s

/-- LDY absx (R143, R110). -/
def execLdyAbsX (a : Word) (s : State) : Answer := load State.setY (.absx a) s

/-- STA indx (R144, R111). -/
def execStaIndX (d : Byte) (s : State) : Answer := store s.a (.indx d) s

/-- STA zp (R144, R107). -/
def execStaZp (d : Byte) (s : State) : Answer := store s.a (.zp d) s

/-- STA abs (R144, R109). -/
def execStaAbs (a : Word) (s : State) : Answer := store s.a (.abs a) s

/-- STA indy (R144, R112). -/
def execStaIndY (d : Byte) (s : State) : Answer := store s.a (.indy d) s

/-- STA zpx (R144, R108). -/
def execStaZpX (d : Byte) (s : State) : Answer := store s.a (.zpx d) s

/-- STA absy (R144, R110). -/
def execStaAbsY (a : Word) (s : State) : Answer := store s.a (.absy a) s

/-- STA absx (R144, R110). -/
def execStaAbsX (a : Word) (s : State) : Answer := store s.a (.absx a) s

/-- STX zp (R145, R107). -/
def execStxZp (d : Byte) (s : State) : Answer := store s.x (.zp d) s

/-- STX abs (R145, R109). -/
def execStxAbs (a : Word) (s : State) : Answer := store s.x (.abs a) s

/-- STX zpy (R145, R108). -/
def execStxZpY (d : Byte) (s : State) : Answer := store s.x (.zpy d) s

/-- STY zp (R146, R107). -/
def execStyZp (d : Byte) (s : State) : Answer := store s.y (.zp d) s

/-- STY abs (R146, R109). -/
def execStyAbs (a : Word) (s : State) : Answer := store s.y (.abs a) s

/-- STY zpx (R146, R108). -/
def execStyZpX (d : Byte) (s : State) : Answer := store s.y (.zpx d) s

/-- TAX (R147). -/
def execTax (s : State) : Answer := transfer State.setX s.a s

/-- TAY (R148). -/
def execTay (s : State) : Answer := transfer State.setY s.a s

/-- TXA (R149). -/
def execTxa (s : State) : Answer := transfer State.setA s.x s

/-- TYA (R150). -/
def execTya (s : State) : Answer := transfer State.setA s.y s

/-- TSX (R151). -/
def execTsx (s : State) : Answer := transfer State.setX s.sp s

/-- TXS (R152): no flag. -/
def execTxs (s : State) : Answer := .next (s.setSp s.x)

end Sys2Proof.Machine
end

