-- ==== Sys2Proof/Machine/Shift.lean ====
section
/-! DEFINITION. Shifts, rotates, increments and decrements (43_shift_incdec.md R190 to R200). -/

namespace Sys2Proof.Machine

/-- Read, modify, write (R190): one read of the location, then one write of it, nothing between. -/
def readModifyWrite (op : Byte → Flags → AluResult) (m : Mode) (s : State) : Answer :=
  let loc := resolve m s
  let v := opRead loc.1 loc.2
  let r := op v.1 v.2.flags
  .next ((opWrite loc.1 r.value v.2).setFlags r.flags)

/-- Step an index register (R197 to R200): no bus access. -/
def stepRegister (put : State → Byte → State) (r : AluResult) (s : State) : Answer :=
  .next ((put s r.value).setFlags r.flags)

/-- ASL zp (R191, R107). -/
def execAslZp (d : Byte) (s : State) : Answer := readModifyWrite shiftLeft (.zp d) s

/-- ASL acc (R191, R105). -/
def execAslAcc (s : State) : Answer := readModifyWrite shiftLeft .acc s

/-- ASL abs (R191, R109). -/
def execAslAbs (a : Word) (s : State) : Answer := readModifyWrite shiftLeft (.abs a) s

/-- ASL zpx (R191, R108). -/
def execAslZpX (d : Byte) (s : State) : Answer := readModifyWrite shiftLeft (.zpx d) s

/-- ASL absx (R191, R110). -/
def execAslAbsX (a : Word) (s : State) : Answer := readModifyWrite shiftLeft (.absx a) s

/-- LSR zp (R192, R107). -/
def execLsrZp (d : Byte) (s : State) : Answer := readModifyWrite shiftRight (.zp d) s

/-- LSR acc (R192, R105). -/
def execLsrAcc (s : State) : Answer := readModifyWrite shiftRight .acc s

/-- LSR abs (R192, R109). -/
def execLsrAbs (a : Word) (s : State) : Answer := readModifyWrite shiftRight (.abs a) s

/-- LSR zpx (R192, R108). -/
def execLsrZpX (d : Byte) (s : State) : Answer := readModifyWrite shiftRight (.zpx d) s

/-- LSR absx (R192, R110). -/
def execLsrAbsX (a : Word) (s : State) : Answer := readModifyWrite shiftRight (.absx a) s

/-- ROL zp (R193, R107). -/
def execRolZp (d : Byte) (s : State) : Answer := readModifyWrite rotateLeft (.zp d) s

/-- ROL acc (R193, R105). -/
def execRolAcc (s : State) : Answer := readModifyWrite rotateLeft .acc s

/-- ROL abs (R193, R109). -/
def execRolAbs (a : Word) (s : State) : Answer := readModifyWrite rotateLeft (.abs a) s

/-- ROL zpx (R193, R108). -/
def execRolZpX (d : Byte) (s : State) : Answer := readModifyWrite rotateLeft (.zpx d) s

/-- ROL absx (R193, R110). -/
def execRolAbsX (a : Word) (s : State) : Answer := readModifyWrite rotateLeft (.absx a) s

/-- ROR zp (R194, R107). -/
def execRorZp (d : Byte) (s : State) : Answer := readModifyWrite rotateRight (.zp d) s

/-- ROR acc (R194, R105). -/
def execRorAcc (s : State) : Answer := readModifyWrite rotateRight .acc s

/-- ROR abs (R194, R109). -/
def execRorAbs (a : Word) (s : State) : Answer := readModifyWrite rotateRight (.abs a) s

/-- ROR zpx (R194, R108). -/
def execRorZpX (d : Byte) (s : State) : Answer := readModifyWrite rotateRight (.zpx d) s

/-- ROR absx (R194, R110). -/
def execRorAbsX (a : Word) (s : State) : Answer := readModifyWrite rotateRight (.absx a) s

/-- INC zp (R195, R107). -/
def execIncZp (d : Byte) (s : State) : Answer := readModifyWrite increment (.zp d) s

/-- INC abs (R195, R109). -/
def execIncAbs (a : Word) (s : State) : Answer := readModifyWrite increment (.abs a) s

/-- INC zpx (R195, R108). -/
def execIncZpX (d : Byte) (s : State) : Answer := readModifyWrite increment (.zpx d) s

/-- INC absx (R195, R110). -/
def execIncAbsX (a : Word) (s : State) : Answer := readModifyWrite increment (.absx a) s

/-- DEC zp (R196, R107). -/
def execDecZp (d : Byte) (s : State) : Answer := readModifyWrite decrement (.zp d) s

/-- DEC abs (R196, R109). -/
def execDecAbs (a : Word) (s : State) : Answer := readModifyWrite decrement (.abs a) s

/-- DEC zpx (R196, R108). -/
def execDecZpX (d : Byte) (s : State) : Answer := readModifyWrite decrement (.zpx d) s

/-- DEC absx (R196, R110). -/
def execDecAbsX (a : Word) (s : State) : Answer := readModifyWrite decrement (.absx a) s

/-- INX (R197). -/
def execInx (s : State) : Answer := stepRegister State.setX (increment s.x s.flags) s

/-- INY (R198). -/
def execIny (s : State) : Answer := stepRegister State.setY (increment s.y s.flags) s

/-- DEX (R199). -/
def execDex (s : State) : Answer := stepRegister State.setX (decrement s.x s.flags) s

/-- DEY (R200). -/
def execDey (s : State) : Answer := stepRegister State.setY (decrement s.y s.flags) s

end Sys2Proof.Machine
end

