-- ==== Sys2Proof/Machine/Stack.lean ====
section
/-! DEFINITION. The stack instructions (41_stack.md R162 to R165). -/

namespace Sys2Proof.Machine

/-- PHA (R162). -/
def execPha (s : State) : Answer := .next (push s.a s)

/-- PHP (R163): `P()` with the break bit (D6). -/
def execPhp (s : State) : Answer := .next (push (statusByte s.flags ||| breakBit) s)

/-- PLA (R164). -/
def execPla (s : State) : Answer :=
  let v := pull s
  .next (setNZ v.1 (v.2.setA v.1))

/-- PLP (R165). -/
def execPlp (s : State) : Answer :=
  let v := pull s
  .next (v.2.setFlags (flagsOfByte v.1))

end Sys2Proof.Machine
end

