-- ==== Sys2Proof/Machine/System.lean ====
section
/-! DEFINITION. Flag instructions, NOP, BRK and RTI (45_flags_system.md R230 to R240). -/

namespace Sys2Proof.Machine

/-- Write the flags and nothing else (R231 to R237). -/
def writeFlags (f : Flags) (s : State) : Answer := .next (s.setFlags f)

/-- CLC (R231). -/
def execClc (s : State) : Answer := writeFlags { s.flags with c := false } s

/-- SEC (R232). -/
def execSec (s : State) : Answer := writeFlags { s.flags with c := true } s

/-- CLI (R233). -/
def execCli (s : State) : Answer := writeFlags { s.flags with i := false } s

/-- SEI (R234). -/
def execSei (s : State) : Answer := writeFlags { s.flags with i := true } s

/-- CLD (R235). -/
def execCld (s : State) : Answer := writeFlags { s.flags with d := false } s

/-- SED (R236). -/
def execSed (s : State) : Answer := writeFlags { s.flags with d := true } s

/-- CLV (R237). -/
def execClv (s : State) : Answer := writeFlags { s.flags with v := false } s

/-- NOP (R238): nothing; `PC` has advanced already. -/
def execNop (s : State) : Answer := .next s

/-- BRK (R239): skip the signature byte unread, then `irq(true)`. -/
def execBrk (s : State) : Answer := .next (irq true (s.setPc (s.pc + 1)))

/-- RTI (R240). -/
def execRti (s : State) : Answer := .next (returnFromInterrupt s)

end Sys2Proof.Machine
end

