-- ==== Sys2Proof/Machine/Dispatch.lean ====
section
/-! DEFINITION. The dispatch: one arm per row of the opcode table, each one call of its meaning. -/

namespace Sys2Proof.Machine

def exec (i : Instr) (s : State) : Host.Outcome State Fault Refusal :=
  match i with
  | .brk => Sys2Proof.Machine.execBrk s
  | .oraIndX d => Sys2Proof.Machine.execOraIndX d s
  | .oraZp d => Sys2Proof.Machine.execOraZp d s
  | .aslZp d => Sys2Proof.Machine.execAslZp d s
  | .php => Sys2Proof.Machine.execPhp s
  | .oraImm d => Sys2Proof.Machine.execOraImm d s
  | .aslAcc => Sys2Proof.Machine.execAslAcc s
  | .oraAbs a => Sys2Proof.Machine.execOraAbs a s
  | .aslAbs a => Sys2Proof.Machine.execAslAbs a s
  | .bpl d => Sys2Proof.Machine.execBpl d s
  | .oraIndY d => Sys2Proof.Machine.execOraIndY d s
  | .oraZpX d => Sys2Proof.Machine.execOraZpX d s
  | .aslZpX d => Sys2Proof.Machine.execAslZpX d s
  | .clc => Sys2Proof.Machine.execClc s
  | .oraAbsY a => Sys2Proof.Machine.execOraAbsY a s
  | .oraAbsX a => Sys2Proof.Machine.execOraAbsX a s
  | .aslAbsX a => Sys2Proof.Machine.execAslAbsX a s
  | .jsr a => Sys2Proof.Machine.execJsr a s
  | .andIndX d => Sys2Proof.Machine.execAndIndX d s
  | .bitZp d => Sys2Proof.Machine.execBitZp d s
  | .andZp d => Sys2Proof.Machine.execAndZp d s
  | .rolZp d => Sys2Proof.Machine.execRolZp d s
  | .plp => Sys2Proof.Machine.execPlp s
  | .andImm d => Sys2Proof.Machine.execAndImm d s
  | .rolAcc => Sys2Proof.Machine.execRolAcc s
  | .bitAbs a => Sys2Proof.Machine.execBitAbs a s
  | .andAbs a => Sys2Proof.Machine.execAndAbs a s
  | .rolAbs a => Sys2Proof.Machine.execRolAbs a s
  | .bmi d => Sys2Proof.Machine.execBmi d s
  | .andIndY d => Sys2Proof.Machine.execAndIndY d s
  | .andZpX d => Sys2Proof.Machine.execAndZpX d s
  | .rolZpX d => Sys2Proof.Machine.execRolZpX d s
  | .sec => Sys2Proof.Machine.execSec s
  | .andAbsY a => Sys2Proof.Machine.execAndAbsY a s
  | .andAbsX a => Sys2Proof.Machine.execAndAbsX a s
  | .rolAbsX a => Sys2Proof.Machine.execRolAbsX a s
  | .rti => Sys2Proof.Machine.execRti s
  | .eorIndX d => Sys2Proof.Machine.execEorIndX d s
  | .eorZp d => Sys2Proof.Machine.execEorZp d s
  | .lsrZp d => Sys2Proof.Machine.execLsrZp d s
  | .pha => Sys2Proof.Machine.execPha s
  | .eorImm d => Sys2Proof.Machine.execEorImm d s
  | .lsrAcc => Sys2Proof.Machine.execLsrAcc s
  | .jmpAbs a => Sys2Proof.Machine.execJmpAbs a s
  | .eorAbs a => Sys2Proof.Machine.execEorAbs a s
  | .lsrAbs a => Sys2Proof.Machine.execLsrAbs a s
  | .bvc d => Sys2Proof.Machine.execBvc d s
  | .eorIndY d => Sys2Proof.Machine.execEorIndY d s
  | .eorZpX d => Sys2Proof.Machine.execEorZpX d s
  | .lsrZpX d => Sys2Proof.Machine.execLsrZpX d s
  | .cli => Sys2Proof.Machine.execCli s
  | .eorAbsY a => Sys2Proof.Machine.execEorAbsY a s
  | .eorAbsX a => Sys2Proof.Machine.execEorAbsX a s
  | .lsrAbsX a => Sys2Proof.Machine.execLsrAbsX a s
  | .rts => Sys2Proof.Machine.execRts s
  | .adcIndX d => Sys2Proof.Machine.execAdcIndX d s
  | .adcZp d => Sys2Proof.Machine.execAdcZp d s
  | .rorZp d => Sys2Proof.Machine.execRorZp d s
  | .pla => Sys2Proof.Machine.execPla s
  | .adcImm d => Sys2Proof.Machine.execAdcImm d s
  | .rorAcc => Sys2Proof.Machine.execRorAcc s
  | .jmpInd a => Sys2Proof.Machine.execJmpInd a s
  | .adcAbs a => Sys2Proof.Machine.execAdcAbs a s
  | .rorAbs a => Sys2Proof.Machine.execRorAbs a s
  | .bvs d => Sys2Proof.Machine.execBvs d s
  | .adcIndY d => Sys2Proof.Machine.execAdcIndY d s
  | .adcZpX d => Sys2Proof.Machine.execAdcZpX d s
  | .rorZpX d => Sys2Proof.Machine.execRorZpX d s
  | .sei => Sys2Proof.Machine.execSei s
  | .adcAbsY a => Sys2Proof.Machine.execAdcAbsY a s
  | .adcAbsX a => Sys2Proof.Machine.execAdcAbsX a s
  | .rorAbsX a => Sys2Proof.Machine.execRorAbsX a s
  | .staIndX d => Sys2Proof.Machine.execStaIndX d s
  | .styZp d => Sys2Proof.Machine.execStyZp d s
  | .staZp d => Sys2Proof.Machine.execStaZp d s
  | .stxZp d => Sys2Proof.Machine.execStxZp d s
  | .dey => Sys2Proof.Machine.execDey s
  | .txa => Sys2Proof.Machine.execTxa s
  | .styAbs a => Sys2Proof.Machine.execStyAbs a s
  | .staAbs a => Sys2Proof.Machine.execStaAbs a s
  | .stxAbs a => Sys2Proof.Machine.execStxAbs a s
  | .bcc d => Sys2Proof.Machine.execBcc d s
  | .staIndY d => Sys2Proof.Machine.execStaIndY d s
  | .styZpX d => Sys2Proof.Machine.execStyZpX d s
  | .staZpX d => Sys2Proof.Machine.execStaZpX d s
  | .stxZpY d => Sys2Proof.Machine.execStxZpY d s
  | .tya => Sys2Proof.Machine.execTya s
  | .staAbsY a => Sys2Proof.Machine.execStaAbsY a s
  | .txs => Sys2Proof.Machine.execTxs s
  | .staAbsX a => Sys2Proof.Machine.execStaAbsX a s
  | .ldyImm d => Sys2Proof.Machine.execLdyImm d s
  | .ldaIndX d => Sys2Proof.Machine.execLdaIndX d s
  | .ldxImm d => Sys2Proof.Machine.execLdxImm d s
  | .ldyZp d => Sys2Proof.Machine.execLdyZp d s
  | .ldaZp d => Sys2Proof.Machine.execLdaZp d s
  | .ldxZp d => Sys2Proof.Machine.execLdxZp d s
  | .tay => Sys2Proof.Machine.execTay s
  | .ldaImm d => Sys2Proof.Machine.execLdaImm d s
  | .tax => Sys2Proof.Machine.execTax s
  | .ldyAbs a => Sys2Proof.Machine.execLdyAbs a s
  | .ldaAbs a => Sys2Proof.Machine.execLdaAbs a s
  | .ldxAbs a => Sys2Proof.Machine.execLdxAbs a s
  | .bcs d => Sys2Proof.Machine.execBcs d s
  | .ldaIndY d => Sys2Proof.Machine.execLdaIndY d s
  | .ldyZpX d => Sys2Proof.Machine.execLdyZpX d s
  | .ldaZpX d => Sys2Proof.Machine.execLdaZpX d s
  | .ldxZpY d => Sys2Proof.Machine.execLdxZpY d s
  | .clv => Sys2Proof.Machine.execClv s
  | .ldaAbsY a => Sys2Proof.Machine.execLdaAbsY a s
  | .tsx => Sys2Proof.Machine.execTsx s
  | .ldyAbsX a => Sys2Proof.Machine.execLdyAbsX a s
  | .ldaAbsX a => Sys2Proof.Machine.execLdaAbsX a s
  | .ldxAbsY a => Sys2Proof.Machine.execLdxAbsY a s
  | .cpyImm d => Sys2Proof.Machine.execCpyImm d s
  | .cmpIndX d => Sys2Proof.Machine.execCmpIndX d s
  | .cpyZp d => Sys2Proof.Machine.execCpyZp d s
  | .cmpZp d => Sys2Proof.Machine.execCmpZp d s
  | .decZp d => Sys2Proof.Machine.execDecZp d s
  | .iny => Sys2Proof.Machine.execIny s
  | .cmpImm d => Sys2Proof.Machine.execCmpImm d s
  | .dex => Sys2Proof.Machine.execDex s
  | .cpyAbs a => Sys2Proof.Machine.execCpyAbs a s
  | .cmpAbs a => Sys2Proof.Machine.execCmpAbs a s
  | .decAbs a => Sys2Proof.Machine.execDecAbs a s
  | .bne d => Sys2Proof.Machine.execBne d s
  | .cmpIndY d => Sys2Proof.Machine.execCmpIndY d s
  | .cmpZpX d => Sys2Proof.Machine.execCmpZpX d s
  | .decZpX d => Sys2Proof.Machine.execDecZpX d s
  | .cld => Sys2Proof.Machine.execCld s
  | .cmpAbsY a => Sys2Proof.Machine.execCmpAbsY a s
  | .cmpAbsX a => Sys2Proof.Machine.execCmpAbsX a s
  | .decAbsX a => Sys2Proof.Machine.execDecAbsX a s
  | .cpxImm d => Sys2Proof.Machine.execCpxImm d s
  | .sbcIndX d => Sys2Proof.Machine.execSbcIndX d s
  | .cpxZp d => Sys2Proof.Machine.execCpxZp d s
  | .sbcZp d => Sys2Proof.Machine.execSbcZp d s
  | .incZp d => Sys2Proof.Machine.execIncZp d s
  | .inx => Sys2Proof.Machine.execInx s
  | .sbcImm d => Sys2Proof.Machine.execSbcImm d s
  | .nop => Sys2Proof.Machine.execNop s
  | .cpxAbs a => Sys2Proof.Machine.execCpxAbs a s
  | .sbcAbs a => Sys2Proof.Machine.execSbcAbs a s
  | .incAbs a => Sys2Proof.Machine.execIncAbs a s
  | .beq d => Sys2Proof.Machine.execBeq d s
  | .sbcIndY d => Sys2Proof.Machine.execSbcIndY d s
  | .sbcZpX d => Sys2Proof.Machine.execSbcZpX d s
  | .incZpX d => Sys2Proof.Machine.execIncZpX d s
  | .sed => Sys2Proof.Machine.execSed s
  | .sbcAbsY a => Sys2Proof.Machine.execSbcAbsY a s
  | .sbcAbsX a => Sys2Proof.Machine.execSbcAbsX a s
  | .incAbsX a => Sys2Proof.Machine.execIncAbsX a s

end Sys2Proof.Machine
end

