-- ==== Sys2Proof/Machine/Engine.lean ====
section
/-! DEFINITION. One step of the CPU engine (60_exceptions.md R260 to R263, R267): the IRQ gate, the fetch, the
instruction, the cycle charge; and placing an instruction where the next step fetches it. -/

namespace Sys2Proof.Machine

/-- The IRQ gate is open (R267): `I == 0 and IRQPEND != 0`. -/
def irqGateOpen (s : State) : Bool := !s.flags.i && irqPend s != 0#16

/-- The top of a step: enter the IRQ handler if the gate is open (R267). -/
def irqGate (s : State) : State := if irqGateOpen s then irq false s else s

/-- What a fetch answers: the instruction, or the opcode byte that has no entry, and the state after the reads. -/
inductive Fetched where
  | instr (i : Instr) (s : State)
  | undefinedOpcode (op : Byte) (s : State)
  deriving DecidableEq, Repr

/-- Fetch the opcode byte and, where it has an entry, its operand bytes (R100 to R103, R260). -/
def fetchInstr (s : State) : Fetched :=
  let op := fetch8 s
  match findRow op.1 with
  | none => .undefinedOpcode op.1 op.2
  | some row =>
    match row.form with
    | .f1 i => .instr i op.2
    | .f2 mk =>
      let d := fetch8 op.2
      .instr (mk d.1) d.2
    | .f3 mk =>
      let l := fetch8 op.2
      let h := fetch8 l.2
      .instr (mk (wordOf h.1 l.1)) h.2

/-- Subtract an instruction's cost from the cycle budget (R261). -/
def chargeCycles (i : Instr) (s : State) : State := s.setCycles (s.cycles - (i.cycles : Int))

/-- Charge the cost where the instruction has run. -/
def afterExec (i : Instr) : Answer → Answer
  | .next s => .next (chargeCycles i s)
  | .fault f => .fault f
  | .refused r => .refused r

/-- Fetch and run one instruction, or halt on an undefined opcode (R260, R262). -/
def runInstruction (s : State) : Answer :=
  match fetchInstr s with
  | .undefinedOpcode op s1 => .next (invalidOperation op s.pc s1)
  | .instr i s1 => afterExec i (exec i s1)

/-- `step()` (R260), of a machine whose launch parameters the spec accepts (log 14). While halted it does nothing (R263). -/
def engineStep (s : State) : Answer :=
  if !s.params.valid then .refused .launchParameters
  else if s.halted then .next s
  else runInstruction (irqGate s)

/-- Where the next step fetches its opcode: the vector if the gate is open, `PC` otherwise. -/
def fetchAddress (s : State) : Word := if irqGateOpen s then pri s.params (irqPend s) else s.pc

/-- Put a byte into the cell a bus address shows, with no side effect: into the image where the address shows ROM. The
two vector addresses have no cell. -/
def pokeCode (s : State) (a : Word) (v : Byte) : State :=
  match decodeAddr s a with
  | .ram off => s.setRam (s.ram.set off v)
  | .disp off => s.setDisp (s.disp.set off v)
  | .reg r => storeReg s r v
  | .rom off =>
    { s with params := { s.params with
        image := Memory.set s.params.image off v, imageLen := max s.params.imageLen (off + 1) } }
  | .vectorLow => s
  | .vectorHigh => s

/-- Put the first three bytes of `w`, bits 7..0 first, where the next step fetches (log 2). A halted engine is started,
since it would fetch nothing. -/
def placeWord (s : State) (nbits w : Nat) : State :=
  let v := w % 2 ^ nbits
  let a := fetchAddress s
  let s0 := { s with halted := false }
  let s1 := pokeCode s0 a (BitVec.ofNat 8 v)
  let s2 := pokeCode s1 (a + 1) (BitVec.ofNat 8 (v / 256))
  pokeCode s2 (a + 2) (BitVec.ofNat 8 (v / 65536))

end Sys2Proof.Machine
end

