-- ==== Sys2Proof/Machine/Step.lean ====
section
/-! DEFINITION. The machine's one transition, and where a program's first instruction is put. -/

namespace Sys2Proof.Machine

/-- One step of the CPU engine: `step()` of 60_exceptions.md R260. -/
def step (s : State) : Host.Outcome State Fault Refusal := engineStep s

/-- `s` with the instruction whose bits are `w` stored where the next step fetches. It stands for loading a program from
outside (log 2). It is exact where those three addresses show RAM, display RAM, ROM or plain registers, and an IRQ
entry, if one is due, does not write over them. -/
def State.withFetchWord (s : State) (nbits w : Nat) : State := placeWord s nbits w

end Sys2Proof.Machine
end

