-- ==== Sys2Proof/Machine/Environment.lean ====
section
/-! DEFINITION. What the environment does to the machine between steps (00_scope.md R6, 60_exceptions.md R272, R274,
65_eeprom_and_ports.md R331, 70_reset_and_hazards.md R341), and runs that mix its actions with steps (log 18). -/

namespace Sys2Proof.Machine

/-- `fire_irq(line)` (R272): nothing on a disabled line or a line beyond 15 (the shift gives 0); else set the line's
pending bit. Also while halted (R263). -/
def fireIrq (line : Nat) (s : State) : State :=
  let b := 0x8000#16 >>> line
  if irqEn s &&& b = 0#16 then s
  else
    let p := irqPend s ||| b
    storeReg (storeReg s s.params.regIrqPendHi (hiByte p)) s.params.regIrqPendLo (loByte p)

/-- `fire_nmi(line)` (R274): nothing on a disabled line, a line beyond 7, or while halted (R263); else `nmi()`. -/
def fireNmi (line : Nat) (s : State) : State :=
  if regByte s s.params.regNmiEn &&& (0x80#8 >>> line) = 0#8 then s
  else if s.halted then s
  else nmi s

/-- The environment's actions (R6). -/
inductive EnvAction where
  /-- `reset()` (R341). -/
  | reset
  /-- `fire_irq(line)` (R272). -/
  | fireIrq (line : Nat)
  /-- `fire_nmi(line)` (R274). -/
  | fireNmi (line : Nat)
  /-- A write of the keypad bitmask (R48). -/
  | setKeys (k : BitVec 4)
  /-- `insert_figure(buffer)` (R331): replaces any previous figure. -/
  | insertFigure (buffer : List Byte)
  /-- An observer clears a bus address's access flags (R90). -/
  | clearAccess (addr : Word)
  /-- The sticky violation flag, cleared only by the environment (R314). -/
  | clearViolation
  /-- The scheduler replenishes the cycle budget (R33). -/
  | addCycles (k : Int)
  deriving DecidableEq, Repr

/-- Perform an action of the environment. -/
def envApply (act : EnvAction) (s : State) : State :=
  match act with
  | .reset => cpuReset s
  | .fireIrq line => fireIrq line s
  | .fireNmi line => fireNmi line s
  | .setKeys k => { s with keys := k }
  | .insertFigure buffer => { s with figure := some buffer }
  | .clearAccess addr => s.setAcc (Cells.set s.acc addr.toNat 0)
  | .clearViolation => s.setEe { s.ee with violation := false }
  | .addCycles k => s.setCycles (s.cycles + k)

/-- One event of a run: a step of the CPU, or an action of the environment between steps (R6, R86). -/
inductive Event where
  | cpu
  | env (act : EnvAction)
  deriving DecidableEq, Repr

/-- Perform one event. -/
def eventApply (e : Event) (s : State) : Answer :=
  match e with
  | .cpu => step s
  | .env act => .next (envApply act s)

/-- A run of events, stopping at the first fault or refusal. -/
def runEvents : List Event → State → Answer
  | [], s => .next s
  | e :: es, s =>
    match eventApply e s with
    | .next t => runEvents es t
    | .fault f => .fault f
    | .refused r => .refused r

end Sys2Proof.Machine
end

