-- ==== Sys2Proof/Safety.lean ====
section
/-! DEFINITION. What counts as a well-formed state and a safe run, and the terms the statements use. -/

namespace Sys2Proof

open Sys2Proof.Machine

/-- The condition a state surfaces (R262, R30): the halted engine's invalid operation. -/
def surfaced (s : State) : Option Fault := if s.halted then some (.invalidOperation s.haltOpcode s.haltAddr) else none

/-- A safe state surfaces nothing: the engine runs. -/
def Safe (s : State) : Prop := surfaced s = none

/-- The EEPROM is well formed: its array is canonical and of `2^EE_BITS` bytes, its address masked to that size (R46),
its bit counter at most 8 (R46), and every save event carries an array of that form (R326). -/
def eepromWf (width : Nat) (e : Eeprom) : Bool :=
  Memory.wf (eeSize width) e.array && decide (e.addr < eeSize width) && decide (e.bits ≤ 8) &&
    e.saves.all fun m => Memory.wf (eeSize width) m

/-- The well-formed states: launch parameters the spec accepts, and every store in its canonical form and size
(R34, R44, R45, R46, R47). -/
def stateWf (s : State) : Bool :=
  s.params.valid && Memory.wf s.params.imageLen s.params.image && Memory.wf Config.numRegs s.reg &&
    Memory.wf Config.ramSize s.ram && Memory.wf Config.dispSize s.disp && eepromWf s.params.eeBits s.ee &&
    Cells.wf Config.busSize s.acc

/-- A bus address shows a byte that exists: not an image offset at or beyond `IMAGE_LEN` (R72). -/
def hasByte (s : State) (a : Word) : Bool :=
  match decodeAddr s a with
  | .rom off => inImage s off
  | .ram _ => true
  | .disp _ => true
  | .reg _ => true
  | .vectorLow => true
  | .vectorHigh => true

/-- The reading of every byte that exists is the same in two states. -/
def SameBytes (s t : State) : Prop := ∀ a : Word, hasByte s a = true → peek t a = peek s a

/-- `t` is `s` but for what bus reads leave: access flags and the count of free bytes. -/
def SameButReads (s t : State) : Prop := t = (s.setAcc t.acc).setFreeCtr t.freeCtr

/-- `n` successive `Fetch8()` (R9, R100): the bytes in order, and the state after them. -/
def fetchBytes : Nat → State → List Byte × State
  | 0, s => ([], s)
  | n + 1, s =>
    let b := fetch8 s
    let r := fetchBytes n b.2
    (b.1 :: r.1, r.2)

/-- The little-endian pointer in page zero at `z`, wrapping in page 0 (R111, R112). -/
def pagePointer (s : State) (z : Byte) : Word := wordOf (peek s (zeroPage (z + 1))) (peek s (zeroPage z))

/-- The address a data mode designates, by the formulas of R107 to R112. -/
def effectiveAddress (m : Mode) (s : State) : Option Word :=
  match m with
  | .imp => none
  | .acc => none
  | .imm _ => none
  | .zp d => some (BitVec.ofNat 16 d.toNat)
  | .zpx d => some (BitVec.ofNat 16 ((d.toNat + s.x.toNat) % 256))
  | .zpy d => some (BitVec.ofNat 16 ((d.toNat + s.y.toNat) % 256))
  | .abs a => some a
  | .absx a => some (BitVec.ofNat 16 (a.toNat + s.x.toNat))
  | .absy a => some (BitVec.ofNat 16 (a.toNat + s.y.toNat))
  | .indx d => some (pagePointer s (d + s.x))
  | .indy d => some (BitVec.ofNat 16 ((pagePointer s d).toNat + s.y.toNat))
  | .ind _ => none
  | .rel _ => none

/-- `v` is the byte `OpRead` gives for a mode: the immediate byte, `A`, or the byte at the effective address (R9). -/
def OperandIs (m : Mode) (s : State) (v : Byte) : Prop :=
  m = .imm v ∨ (m = .acc ∧ v = s.a) ∨ ∃ a, effectiveAddress m s = some a ∧ v = peek s a

/-- The bus addresses an instruction stores to, computed as its meaning computes them: the resolved location of a store or
a read-modify-write instruction (R144, R190), the stack bytes of a push (R160, R167). -/
def storedAddresses (i : Instr) (s : State) : List Word :=
  match i.mnemonic with
  | .sta | .stx | .sty | .asl | .lsr | .rol | .ror | .inc | .dec =>
    match (resolve i.mode s).1 with
    | .mem a => [a]
    | .acc => []
    | .imm _ => []
  | .pha | .php => [stackAddr s.sp]
  | .jsr => [stackAddr s.sp, stackAddr (s.sp - 1)]
  | .brk => [stackAddr s.sp, stackAddr (s.sp - 1), stackAddr (s.sp - 2)]
  | _ => []

/-- A store to the bus address `a` may change what reading `b` returns: the same cell through any mirror (R66 to R68),
and for a control register (R69) what is derived from it: port A from every register, port B's pins from its two
registers, the banked window from the bank register, the two top addresses from the pending mask. -/
def StoreReaches (s : State) (a b : Word) : Prop :=
  match decodeAddr s a, decodeAddr s b with
  | .ram o, .ram o' => o' = o
  | .disp o, .disp o' => o' = o
  | .reg r, .reg r' => r' = r ∨ r' = s.params.regPaData ∨
      (r' = s.params.regPbData ∧ (r = s.params.regPbDir ∨ r = s.params.regPbData))
  | .reg r, .rom _ => r = s.params.regBank ∧ b.toNat ≤ 0xBFFF
  | .reg r, .vectorLow => r = s.params.regIrqPendHi ∨ r = s.params.regIrqPendLo
  | .reg r, .vectorHigh => r = s.params.regIrqPendHi ∨ r = s.params.regIrqPendLo
  | _, _ => False

/-! The line events of an EEPROM session (R328), with the power on; a pair is (clock, data). -/

/-- Present a list of line levels, one `update` each. -/
def eeEvents (width : Nat) : List (Bool × Bool) → Eeprom → Eeprom
  | [], e => e
  | (c, d) :: rest, e => eeEvents width rest (eeUpdate width true c d e)

/-- START from clock and data high (R328). -/
def eeSendStart (width : Nat) (e : Eeprom) : Eeprom := eeEvents width [(true, false), (false, false)] e

/-- A repeated START from the clock low: data high, clock high, then START. -/
def eeSendRestart (width : Nat) (e : Eeprom) : Eeprom :=
  eeSendStart width (eeEvents width [(false, true), (true, true)] e)

/-- STOP from the clock low (R328). -/
def eeSendStop (width : Nat) (e : Eeprom) : Eeprom :=
  eeEvents width [(false, false), (true, false), (true, true)] e

/-- Send one bit: set the data with the clock low, clock up, clock down (R328). -/
def eeSendBit (width : Nat) (b : Bool) (e : Eeprom) : Eeprom :=
  eeEvents width [(false, b), (true, b), (false, b)] e

/-- Send a byte, most significant bit first, and run the acknowledge clock (R328): the acknowledge level read while the
clock is high (false is ACK), and the EEPROM after it. -/
def eeSendByte (width : Nat) (v : Byte) (e : Eeprom) : Bool × Eeprom :=
  let e8 := [7, 6, 5, 4, 3, 2, 1, 0].foldl (fun e k => eeSendBit width (v.getLsbD k) e) e
  let up := eeEvents width [(false, true), (true, true)] e8
  (up.output, eeEvents width [(false, true)] up)

/-- Send bytes in order; the acknowledge levels. -/
def eeSendBytes (width : Nat) : List Byte → Eeprom → List Bool × Eeprom
  | [], e => ([], e)
  | v :: vs, e =>
    let r := eeSendByte width v e
    let rs := eeSendBytes width vs r.2
    (r.1 :: rs.1, rs.2)

/-- Receive one bit into the low end of `acc`: clock up, read the line, clock down (R328). -/
def eeReceiveBit (width : Nat) (p : Byte × Eeprom) : Byte × Eeprom :=
  let up := eeEvents width [(true, true)] p.2
  (p.1 <<< 1 ||| (if up.output then 1#8 else 0#8), eeEvents width [(false, true)] up)

/-- Receive a byte, most significant bit first, and run the acknowledge clock (R328). -/
def eeReceiveByte (width : Nat) (e : Eeprom) : Byte × Eeprom :=
  let r := eeReceiveBit width (eeReceiveBit width (eeReceiveBit width (eeReceiveBit width
    (eeReceiveBit width (eeReceiveBit width (eeReceiveBit width (eeReceiveBit width (0#8, e))))))))
  (r.1, eeEvents width [(true, true), (false, true)] r.2)

/-- Receive `n` bytes in order. -/
def eeReceiveBytes (width : Nat) : Nat → Eeprom → List Byte × Eeprom
  | 0, e => ([], e)
  | n + 1, e =>
    let r := eeReceiveByte width e
    let rs := eeReceiveBytes width n r.2
    (r.1 :: rs.1, rs.2)

/-- A write session (R328): START, 0xA0, address bytes, data bytes, STOP; the acknowledge levels. -/
def eeWriteSession (width : Nat) (address data : List Byte) (e : Eeprom) : List Bool × Eeprom :=
  let r := eeSendBytes width (0xA0#8 :: (address ++ data)) (eeSendStart width e)
  (r.1, eeSendStop width r.2)

/-- A read at a chosen address (R328): START, 0xA0, address bytes, a new START, 0xA1, `n` bytes received, STOP. -/
def eeReadSession (width : Nat) (address : List Byte) (n : Nat) (e : Eeprom) : List Byte × Eeprom :=
  let r := eeSendBytes width (0xA0#8 :: address) (eeSendStart width e)
  let r1 := eeSendByte width 0xA1#8 (eeSendRestart width r.2)
  let rs := eeReceiveBytes width n r1.2
  (rs.1, eeSendStop width rs.2)

end Sys2Proof
end

