-- ==== Sys2Proof/Certificates/Slice0/Obligations.lean ====
section
/-! DEFINITION. The statements for the provers. Each docstring names the rules of spec/ it formalises; where a clause rests
on one of the spec's own decisions (D n of 92_eei_decisions.md) or on this model's log, it says so. The instruction
semantics of files 30 and 40 to 45 are the spec's rules, marked there as general knowledge adopted under D1. -/

open Sys2Proof Sys2Proof.Machine

/-! Encoding. -/

/-- R100, R101, R116: decoding the bytes of any instruction, whatever follows them, gives that instruction and what
follows. -/
def Obligations.DecodeOfEncodeIsIdentity : Prop :=
  ∀ (i : Instr) (rest : List Byte), decode (encode i ++ rest) = .ok i rest

/-- R100, R101, R121: each instruction has one encoding: bytes that decode to it are its encoding. -/
def Obligations.EncodeOfDecodeIsIdentity : Prop :=
  ∀ (bs rest : List Byte) (i : Instr), decode bs = .ok i rest → bs = encode i ++ rest

/-- The 105 undefined opcode bytes, as R117 lists them. -/
def Sys2Proof.undefinedBytes : List Byte :=
  [0x02, 0x03, 0x04, 0x07, 0x0B, 0x0C, 0x0F, 0x12, 0x13, 0x14, 0x17, 0x1A, 0x1B, 0x1C, 0x1F, 0x22, 0x23, 0x27, 0x2B, 0x2F,
   0x32, 0x33, 0x34, 0x37, 0x3A, 0x3B, 0x3C, 0x3F, 0x42, 0x43, 0x44, 0x47, 0x4B, 0x4F, 0x52, 0x53, 0x54, 0x57, 0x5A, 0x5B,
   0x5C, 0x5F] ++
  [0x62, 0x63, 0x64, 0x67, 0x6B, 0x6F, 0x72, 0x73, 0x74, 0x77, 0x7A, 0x7B, 0x7C, 0x7F, 0x80, 0x82, 0x83, 0x87, 0x89, 0x8B,
   0x8F, 0x92, 0x93, 0x97, 0x9B, 0x9C, 0x9E, 0x9F, 0xA3, 0xA7, 0xAB, 0xAF, 0xB2, 0xB3, 0xB7, 0xBB, 0xBF] ++
  [0xC2, 0xC3, 0xC7, 0xCB, 0xCF, 0xD2, 0xD3, 0xD4, 0xD7, 0xDA, 0xDB, 0xDC, 0xDF, 0xE2, 0xE3, 0xE7, 0xEB, 0xEF, 0xF2, 0xF3,
   0xF4, 0xF7, 0xFA, 0xFB, 0xFC, 0xFF]

/-- R117: decoding rejects exactly the 105 listed opcode bytes, by name, whatever follows; every byte whose low two bits
are 11 is among them, and every byte x2 except A2. -/
def Obligations.UndefinedOpcodesAreRejectedByName : Prop :=
  (∀ (op : Byte) (rest : List Byte), decode (op :: rest) = .undefinedOpcode op ↔ op ∈ undefinedBytes) ∧
  (∀ op : Byte, op &&& 3#8 = 3#8 → op ∈ undefinedBytes) ∧
  (∀ op : Byte, op &&& 0x0F#8 = 2#8 → op ≠ 0xA2#8 → op ∈ undefinedBytes)

/-- R116, R141 to R240: words written out from the spec's encodings decode to the instructions they stand for, one of
each addressing mode. -/
def Obligations.WrittenOutWordsDecode : Prop :=
  decode [0xEA] = .ok .nop [] ∧ decode [0x0A] = .ok .aslAcc [] ∧ decode [0xA9, 0x80] = .ok (.ldaImm 0x80) [] ∧
  decode [0x86, 0x20] = .ok (.stxZp 0x20) [] ∧ decode [0xB5, 0xF0] = .ok (.ldaZpX 0xF0) [] ∧
  decode [0xB6, 0x10] = .ok (.ldxZpY 0x10) [] ∧ decode [0x20, 0x00, 0xE1] = .ok (.jsr 0xE100) [] ∧
  decode [0xBD, 0xFF, 0xFE] = .ok (.ldaAbsX 0xFEFF) [] ∧ decode [0x99, 0x00, 0x02] = .ok (.staAbsY 0x0200) [] ∧
  decode [0xA1, 0xFF] = .ok (.ldaIndX 0xFF) [] ∧ decode [0xB1, 0x10] = .ok (.ldaIndY 0x10) [] ∧
  decode [0x6C, 0xFF, 0x02] = .ok (.jmpInd 0x02FF) [] ∧ decode [0xD0, 0xFB] = .ok (.bne 0xFB) []

/-! The step. -/

/-- R260: when the bytes fetched at the program counter (after the IRQ gate) decode to an instruction, the step is `exec`
of it, in the state after the fetch, and then the charge of its cycle cost. Launch parameters the spec refuses and the
halted engine are apart (logs 13, 14). -/
def Obligations.StepRunsTheDecodedInstruction : Prop :=
  ∀ (s t : State) (i : Instr) (bs : List Byte), s.params.valid = true → s.halted = false →
    fetchBytes i.length (irqGate s) = (bs, t) → decode bs = .ok i [] → step s = afterExec i (exec i t)

/-- R9 `Fetch8`, R24: fetching `n` bytes returns the bytes at `PC`, `PC + 1`, … (modulo 0x10000), leaves `PC` after the
last one, and otherwise leaves only what reads leave. -/
def Obligations.FetchReadsBytesAndAdvancesPc : Prop :=
  ∀ (n : Nat) (s t : State) (bs : List Byte), fetchBytes n s = (bs, t) →
    bs.length = n ∧ t.pc = s.pc + BitVec.ofNat 16 n ∧ SameButReads (s.setPc t.pc) t ∧
    ∀ k, k < n → hasByte s (s.pc + BitVec.ofNat 16 k) = true → bs[k]? = some (peek s (s.pc + BitVec.ofNat 16 k))

/-- R262 (the state at the halt is the spec's decision D7): fetching an undefined opcode byte halts the engine, recording
the byte and its address; `PC` is one past it, no cycles are charged, the IRQ entry of the same step stays, and only the
fetch's access flag and free-byte count change besides. -/
def Obligations.UndefinedOpcodeHaltsTheEngine : Prop :=
  ∀ s : State, s.params.valid = true → s.halted = false → peek (irqGate s) (irqGate s).pc ∈ undefinedBytes →
    ∃ t, step s = .next t ∧ t.halted = true ∧ t.haltOpcode = peek (irqGate s) (irqGate s).pc ∧
      t.haltAddr = (irqGate s).pc ∧ t.pc = (irqGate s).pc + 1 ∧ t.cycles = s.cycles ∧
      SameButReads (((irqGate s).setPc t.pc).setHalt true t.haltOpcode t.haltAddr) t

/-- R263 (decision D7): while halted a step changes nothing and `fire_nmi` does nothing. -/
def Obligations.HaltedEngineDoesNothing : Prop :=
  ∀ s : State, s.halted = true → (s.params.valid = true → step s = .next s) ∧ ∀ line, fireNmi line s = s

/-- R30, R345 (decision D7): of all events, steps and the environment's actions, only `reset()` makes a halted engine
run again, and it does; and the record of the halt stays. -/
def Obligations.OnlyResetRevivesTheEngine : Prop :=
  ∀ s : State, s.halted = true →
    (∀ (e : Event) (t : State), e ≠ .env .reset → eventApply e s = .next t →
      t.halted = true ∧ t.haltOpcode = s.haltOpcode ∧ t.haltAddr = s.haltAddr) ∧
    (cpuReset s).halted = false

/-- R261 (IRQ entry and a halting step cost nothing: decisions D8, D7): a step either halts, charging nothing, or runs one
instruction, whose bytes it fetched after the IRQ gate, and charges exactly its table cost. -/
def Obligations.StepChargesTheTableCost : Prop :=
  ∀ s t : State, s.halted = false → step s = .next t →
    (t.halted = true ∧ t.cycles = s.cycles) ∨
    (t.halted = false ∧ ∃ i : Instr, decode (fetchBytes i.length (irqGate s)).1 = .ok i [] ∧
      t.cycles = s.cycles - (i.cycles : Int))

/-- R361, R33: no rule reads the cycle budget: a step from a state with any other budget makes the same step, its budget
apart. -/
def Obligations.StepIgnoresTheCycleBudget : Prop :=
  ∀ (s t : State) (k : Int), step s = .next t →
    step (s.setCycles k) = .next (t.setCycles (k + (t.cycles - s.cycles)))

/-- R90, R47: no rule reads the access flags: steps from two states that differ in them alone end in states that differ
in them alone. -/
def Obligations.StepIgnoresAccessFlags : Prop :=
  ∀ (s t : State) (m : Cells 2), step s = .next t → ∃ m', step (s.setAcc m) = .next (t.setAcc m')

/-- R267: a step tests the gate first; where it is open (`I` clear and a pending bit set) the step is `irq(false)`
followed by one instruction; where it is closed no entry is made. In either case the instruction runs with the gate
closed, so the step after `irq(false)` is the same step. -/
def Obligations.OpenIrqGateEntersTheHandlerFirst : Prop :=
  ∀ s : State, s.params.valid = true → s.halted = false →
    (s.flags.i = false → irqPend s ≠ 0#16 → step s = runInstruction (irq false s) ∧ step s = step (irq false s)) ∧
    (s.flags.i = true ∨ irqPend s = 0#16 → step s = runInstruction s)

/-! Interrupts. -/

/-- R266: `irq(fromBreak)` pushes `PC` high, `PC` low and the status, bit 4 set only from BRK and `I` as it was; loads
`PC` from the priority table; sets `I`; and changes nothing else. That the entry charges no cycles is decision D8 (R261,
log 27); which bits of the status BRK forces is D6 (log 25). -/
def Obligations.IrqEntryPushesAndVectors : Prop :=
  ∀ (s : State) (fromBreak : Bool), ∃ acc, irq fromBreak s = { s with
    ram := ((s.ram.set (0x100 + s.sp.toNat) (hiByte s.pc)).set (0x100 + (s.sp - 1).toNat) (loByte s.pc)).set
      (0x100 + (s.sp - 2).toNat) (statusByte s.flags ||| (if fromBreak then 0x10#8 else 0#8))
    sp := s.sp - 3
    pc := pri s.params (irqPend s)
    flags := { s.flags with i := true }
    acc := acc }

/-- R265: `nmi()` pushes `PC` high, `PC` low and the status with bit 4 clear, loads `PC` from the image word behind 0xFFFA
and leaves every flag, `I` among them, as it was; nothing else changes. That it charges no cycles is decision D8 (R261,
log 27). -/
def Obligations.NmiEntryPushesAndVectors : Prop :=
  ∀ s : State, s.params.valid = true → ∃ acc, nmi s = { s with
    ram := ((s.ram.set (0x100 + s.sp.toNat) (hiByte s.pc)).set (0x100 + (s.sp - 1).toNat) (loByte s.pc)).set
      (0x100 + (s.sp - 2).toNat) (statusByte s.flags)
    sp := s.sp - 3
    pc := wordOf (Memory.get s.params.image 0x3FFB) (Memory.get s.params.image 0x3FFA)
    acc := acc } ∧ (statusByte s.flags).getLsbD 4 = false ∧ (statusByte s.flags).getLsbD 5 = true

/-- R272 (that the two masks are the HI and LO bytes is D12): a request on a disabled line or a line beyond 15 changes
nothing; on an enabled line it sets exactly that pending bit, in `REG`, and nothing else; halted or not (R263). -/
def Obligations.FireIrqSetsEnabledLine : Prop :=
  ∀ (s : State) (line : Nat), stateWf s = true →
    (16 ≤ line → fireIrq line s = s) ∧
    (line < 16 → (irqEn s).getLsbD (15 - line) = false → fireIrq line s = s) ∧
    (line < 16 → (irqEn s).getLsbD (15 - line) = true →
      irqPend (fireIrq line s) = irqPend s ||| (0x8000#16 >>> line) ∧
      fireIrq line s = s.setReg (fireIrq line s).reg ∧
      ∀ r, r ≠ s.params.regIrqPendHi → r ≠ s.params.regIrqPendLo → regByte (fireIrq line s) r = regByte s r)

/-- R274 (that a halted engine is left alone is D7): a request on a disabled NMI line or a line beyond 7 changes nothing;
on an enabled line it enters `nmi()` at once, whatever `I` is. -/
def Obligations.FireNmiEntersWhenEnabled : Prop :=
  ∀ (s : State) (line : Nat), s.halted = false →
    (8 ≤ line → fireNmi line s = s) ∧
    (line < 8 → (regByte s s.params.regNmiEn).getLsbD (7 - line) = false → fireNmi line s = s) ∧
    (line < 8 → (regByte s s.params.regNmiEn).getLsbD (7 - line) = true → fireNmi line s = nmi s)

/-- R270, R271: the vector of a pending mask is the vector word of its highest set bit, whatever the lower bits are; bit
`15 − k` uses word `k` (decision D9); the mask 0 uses `VECTOR_IDLE` (the OPEN parameter of D10). -/
def Obligations.HighestPendingBitSelectsVector : Prop :=
  ∀ p : Params,
    (∀ (m : Word) (h : Nat), h < 16 → m.getLsbD h = true → (∀ j, h < j → m.getLsbD j = false) →
      pri p m = wordOf (Memory.get p.image (0x3FC1 + 2 * (15 - h))) (Memory.get p.image (0x3FC0 + 2 * (15 - h)))) ∧
    pri p 0#16 = p.vectorIdle

/-- R74: 0xFFFE and 0xFFFF read as the low and high byte of `PRI[IRQPEND]`, and so the word read there is `PRI[IRQPEND]`;
writes to them are discarded. -/
def Obligations.TopAddressesShowPriorityTable : Prop :=
  ∀ s : State, peek s 0xFFFE = loByte (pri s.params (irqPend s)) ∧ peek s 0xFFFF = hiByte (pri s.params (irqPend s)) ∧
    (busRead16 s 0xFFFE).1 = pri s.params (irqPend s) ∧
    ∀ (a : Word) (v : Byte), (a = 0xFFFE ∨ a = 0xFFFF) → busWrite s a v = markAccess 2 s a

/-- R37: "software cannot set a pending bit by writing": whatever instruction a step runs and whatever entry it makes, no
pending bit is set after it that was not set before. -/
def Obligations.StepSetsNoPendingBit : Prop :=
  ∀ s t : State, stateWf s = true → step s = .next t → irqPend t &&& ~~~ irqPend s = 0#16

/-! Invariants and reset. -/

/-- R31, R44, R46: every step keeps the state well formed: the launch parameters valid, every store canonical and of its
size, the EEPROM's address below its capacity and its bit counter at most 8. -/
def Obligations.StepKeepsStateWellFormed : Prop :=
  ∀ s t : State, stateWf s = true → step s = .next t → stateWf t = true

/-- The same of every action of the environment (R6), and what each writes. All but `reset()` and `fire_nmi` leave the
CPU registers, the flags and both RAMs alone; all but `reset()` and the cycle budget's replenishment leave the budget
alone (that `fire_nmi` charges nothing is D8, log 27); only `reset()` writes `halted` (D7), and none writes its record
(that `reset()` keeps it is log 8). A keypad write (R48), a figure (R331), the clearing of one address's access flags
(R90) or of the violation flag (R314) and the replenishment (R33) write that one thing. -/
def Obligations.EnvironmentKeepsStateWellFormed : Prop :=
  ∀ (act : EnvAction) (s : State), stateWf s = true → stateWf (envApply act s) = true ∧
    ((envApply act s).params = s.params) ∧
    (act ≠ .reset → (∀ line, act ≠ .fireNmi line) →
      (envApply act s).a = s.a ∧ (envApply act s).x = s.x ∧ (envApply act s).y = s.y ∧ (envApply act s).sp = s.sp ∧
      (envApply act s).pc = s.pc ∧ (envApply act s).flags = s.flags ∧ (envApply act s).ram = s.ram ∧
      (envApply act s).disp = s.disp) ∧
    (act ≠ .reset → (∀ k, act ≠ .addCycles k) → (envApply act s).cycles = s.cycles) ∧
    (act ≠ .reset → (envApply act s).halted = s.halted) ∧
    (envApply act s).haltOpcode = s.haltOpcode ∧ (envApply act s).haltAddr = s.haltAddr ∧
    (∀ k, act = .setKeys k → envApply act s = { s with keys := k }) ∧
    (∀ buffer, act = .insertFigure buffer → envApply act s = { s with figure := some buffer }) ∧
    (∀ a, act = .clearAccess a → envApply act s = { s with acc := (envApply act s).acc } ∧
      ∀ b : Word, Cells.get (envApply act s).acc b.toNat = if b = a then 0#2 else Cells.get s.acc b.toNat) ∧
    (act = .clearViolation → envApply act s = { s with ee := { s.ee with violation := false } }) ∧
    (∀ k, act = .addCycles k → envApply act s = { s with cycles := s.cycles + k })

/-- R49: the state after reset is well formed. (Which values the launch parameters have in it is the model's choice,
logs 3 to 6.) -/
def Obligations.ResetStateIsWellFormed : Prop := stateWf State.reset = true ∧ Safe State.reset

/-- R341, R343 (what it leaves alone is decision D17; that `halted` clears is D7): `reset()` loads `PC` from the image
word behind 0xFFFC, clears the registers, the flags, the cycle budget and `halted`, and changes nothing else but access
flags (that `halt_opcode` and `halt_addr` keep their values is the model's choice, log 8). A vector that encodes 0xE000
sets `PC` to 0xE000. -/
def Obligations.ResetClearsTheCpu : Prop :=
  ∀ s : State, s.params.valid = true →
    (∃ acc, cpuReset s = { s with
      pc := wordOf (Memory.get s.params.image 0x3FFD) (Memory.get s.params.image 0x3FFC)
      a := 0, x := 0, y := 0, sp := 0
      flags := { c := false, z := false, i := false, d := false, v := false, n := false }
      cycles := 0
      halted := false
      acc := acc }) ∧
    (Memory.get s.params.image 0x3FFC = 0x00#8 → Memory.get s.params.image 0x3FFD = 0xE0#8 →
      (cpuReset s).pc = 0xE000#16)

/-! The bus. -/

/-- R62, R83, R72: a read returns the byte of the region (`peek`, which `AddressMapSelectsBacking` and
`TopAddressesShowPriorityTable` give window by window) and changes only the read flag of its own bus address; where the
image has no byte, the byte is a free value (D14, log 11) and the count of free bytes goes up by one. -/
def Obligations.BusReadHasNoSideEffect : Prop :=
  ∀ (s : State) (a : Word), SameButReads s (busRead s a).2 ∧ SameBytes s (busRead s a).2 ∧
    (hasByte s a = true → (busRead s a).1 = peek s a ∧ (busRead s a).2.freeCtr = s.freeCtr) ∧
    (hasByte s a = false → (busRead s a).1 = Config.freeByte s.freeCtr ∧ (busRead s a).2.freeCtr = s.freeCtr + 1) ∧
    (stateWf s = true → ∀ b : Word, Cells.get (busRead s a).2.acc b.toNat =
      if b = a then Cells.get s.acc a.toNat ||| 1#2 else Cells.get s.acc b.toNat)

/-- R64 to R70, R73: which byte each window shows. The register window shows R69's read column: the pin levels at port B
data (their bits are `PortBLevels`; the read path is decision D19, log 31), `PORTA_IN` at port A data, 0xFF at `REG_FF`,
else the stored byte. `PORTA_IN` (R330) depends on the keypad, on whether a figure is inserted and on the registers
alone, and a pressed key reads as 0 in its bit (which bit and the rest are open, D30, log 12). The top two addresses are
R74's. -/
def Obligations.AddressMapSelectsBacking : Prop :=
  ∀ (s : State) (a : Word),
    (a.toNat ≤ 0x0FFF → peek s a = s.ram.get (a.toNat % 0x600)) ∧
    (0x1000 ≤ a.toNat → a.toNat ≤ 0x2FFF → peek s a = s.disp.get (a.toNat % 0x200)) ∧
    (0x3000 ≤ a.toNat → a.toNat ≤ 0x3FFF → ∀ r : Byte, r = BitVec.ofNat 8 a.toNat →
      peek s a =
        if r = s.params.regPbData then portBPins s
        else if r = s.params.regPaData then portAIn s
        else if r = s.params.regFF then 0xFF#8
        else regByte s r) ∧
    (∀ t : State, t.keys = s.keys → t.figure.isSome = s.figure.isSome → t.reg = s.reg → portAIn t = portAIn s) ∧
    (∀ k : Fin 4, s.keys.getLsbD k.val = false → (portAIn s).getLsbD (Config.portAKeyBit k).val = false) ∧
    (0x4000 ≤ a.toNat → a.toNat ≤ 0xBFFF →
      0x8000 * ((regByte s s.params.regBank).toNat % 20) + (a.toNat - 0x4000) < s.params.imageLen →
      peek s a = Memory.get s.params.image (0x8000 * ((regByte s s.params.regBank).toNat % 20) + (a.toNat - 0x4000))) ∧
    (0xC000 ≤ a.toNat → a.toNat ≤ 0xFFFD → s.params.valid = true →
      peek s a = Memory.get s.params.image (a.toNat - 0xC000))

/-- R77: a read after a write to the same address returns the written byte, but for the ROM windows and the two top
addresses (where the write is discarded) and five registers of the register window, which R77's second sentence adds to
the source's ("This spec adds the exceptions that follow from rule R69"): the pending bytes return the old value with
the written ones cleared, `REG_FF` 0xFF, port A its derived value (D30, log 12), port B data its pin levels (decision
D19, log 31). -/
def Obligations.ReadAfterWriteReturnsValue : Prop :=
  ∀ (s : State) (a : Word) (v : Byte), stateWf s = true →
    (a.toNat ≤ 0x2FFF → peek (busWrite s a v) a = v) ∧
    (0x3000 ≤ a.toNat → a.toNat ≤ 0x3FFF → ∀ r : Byte, r = BitVec.ofNat 8 a.toNat →
      peek (busWrite s a v) a =
        if r = s.params.regPbData then portBPins (busWrite s a v)
        else if r = s.params.regPaData then portAIn (busWrite s a v)
        else if r = s.params.regFF then 0xFF#8
        else if r = s.params.regIrqPendHi ∨ r = s.params.regIrqPendLo then regByte s r &&& ~~~ v
        else v) ∧
    (0x4000 ≤ a.toNat → ∀ b, peek (busWrite s a v) b = peek s b)

/-- R78, R66 to R68: a write through one address of a mirrored window is read back through every other address of the same
cell; a register access through any mirror has the same effect, access flags apart. -/
def Obligations.MirrorsShareStorage : Prop :=
  ∀ (s : State) (a b : Word) (v : Byte), stateWf s = true →
    (a.toNat ≤ 0x0FFF → b.toNat ≤ 0x0FFF → a.toNat % 0x600 = b.toNat % 0x600 → peek (busWrite s a v) b = v) ∧
    (0x1000 ≤ a.toNat → a.toNat ≤ 0x2FFF → 0x1000 ≤ b.toNat → b.toNat ≤ 0x2FFF →
      (a.toNat - 0x1000) % 0x200 = (b.toNat - 0x1000) % 0x200 → peek (busWrite s a v) b = v) ∧
    (0x3000 ≤ a.toNat → a.toNat ≤ 0x3FFF → 0x3000 ≤ b.toNat → b.toNat ≤ 0x3FFF → a.toNat % 0x100 = b.toNat % 0x100 →
      peek s a = peek s b ∧ (busWrite s a v).setAcc [] = (busWrite s b v).setAcc [])

/-- R70, R35, R71: after a write of `v` to the bank register, every read of the banked window shows the image byte of
bank `v mod 20`, at once, and the register itself reads back as all of `v`. The read-back (all of `v`, not `v mod 20`)
is the spec's decision D16 (log 29, DESIGN CHOICE), not the source's word. -/
def Obligations.BankRegisterSelectsRomBank : Prop :=
  ∀ (s : State) (a b : Word) (v : Byte), stateWf s = true →
    0x3000 ≤ a.toNat → a.toNat ≤ 0x3FFF → BitVec.ofNat 8 a.toNat = s.params.regBank →
    regByte (busWrite s a v) s.params.regBank = v ∧ peek (busWrite s a v) a = v ∧
    (0x4000 ≤ b.toNat → b.toNat ≤ 0xBFFF → 0x8000 * (v.toNat % 20) + (b.toNat - 0x4000) < s.params.imageLen →
      peek (busWrite s a v) b = Memory.get s.params.image (0x8000 * (v.toNat % 20) + (b.toNat - 0x4000)))

/-- R75: "A write to any address in 0x4000 to 0xFFFF changes no state except `ACC[addr]` bit 1". -/
def Obligations.RomWritesAreDiscarded : Prop :=
  ∀ (s : State) (a : Word) (v : Byte), 0x4000 ≤ a.toNat →
    busWrite s a v = s.setAcc (Cells.set s.acc a.toNat (Cells.get s.acc a.toNat ||| 2#2))

/-- R69, R303: a write of `v` to register `r`, by `regWrite` and by a bus write through any address that shows `r`,
stores `v`, but on the two pending bytes stores the old byte with the ones of `v` cleared; runs one EEPROM `update`
with the new port-B levels exactly on the two port-B registers; and leaves every other register and both RAMs alone.
-/
def Obligations.RegisterWriteEffects : Prop :=
  ∀ (s : State) (r v : Byte), stateWf s = true →
    (regByte (regWrite s r v) r =
      if r = s.params.regIrqPendHi ∨ r = s.params.regIrqPendLo then regByte s r &&& ~~~ v else v) ∧
    (∀ r', r' ≠ r → regByte (regWrite s r v) r' = regByte s r') ∧
    (r = s.params.regPbDir ∨ r = s.params.regPbData →
      (regWrite s r v).ee = eeUpdate s.params.eeBits ((portBLines (regWrite s r v)).getLsbD s.params.pbPowerBit.val)
        ((portBLines (regWrite s r v)).getLsbD s.params.pbClockBit.val)
        ((portBLines (regWrite s r v)).getLsbD s.params.pbDataBit.val) s.ee) ∧
    (r ≠ s.params.regPbDir → r ≠ s.params.regPbData → (regWrite s r v).ee = s.ee) ∧
    regWrite s r v = (s.setReg (regWrite s r v).reg).setEe (regWrite s r v).ee ∧
    (∀ a : Word, 0x3000 ≤ a.toNat → a.toNat ≤ 0x3FFF → r = BitVec.ofNat 8 a.toNat →
      regByte (busWrite s a v) r =
        (if r = s.params.regIrqPendHi ∨ r = s.params.regIrqPendLo then regByte s r &&& ~~~ v else v) ∧
      (∀ r', r' ≠ r → regByte (busWrite s a v) r' = regByte s r') ∧
      (busWrite s a v).ee =
        (if r = s.params.regPbDir ∨ r = s.params.regPbData then
          eeUpdate s.params.eeBits ((portBLines (busWrite s a v)).getLsbD s.params.pbPowerBit.val)
            ((portBLines (busWrite s a v)).getLsbD s.params.pbClockBit.val)
            ((portBLines (busWrite s a v)).getLsbD s.params.pbDataBit.val) s.ee
         else s.ee) ∧
      (busWrite s a v).ram = s.ram ∧ (busWrite s a v).disp = s.disp)

/-- R63, R77, R86, R90: a bus write changes what another address reads only where the store reaches it, changes no CPU
register, and sets the write flag of its own bus address and no other flag (one entry per bus address, bit 1 for a
write: decision D15, log 16). -/
def Obligations.BusWriteFrame : Prop :=
  ∀ (s : State) (a : Word) (v : Byte),
    (∀ b : Word, hasByte s b = true → ¬ StoreReaches s a b → peek (busWrite s a v) b = peek s b) ∧
    busWrite s a v = { s with
      ram := (busWrite s a v).ram, disp := (busWrite s a v).disp, reg := (busWrite s a v).reg
      ee := (busWrite s a v).ee, acc := (busWrite s a v).acc } ∧
    (a.toNat < 0x3000 ∨ 0x4000 ≤ a.toNat → (busWrite s a v).reg = s.reg ∧ (busWrite s a v).ee = s.ee) ∧
    (stateWf s = true → ∀ b : Word, Cells.get (busWrite s a v).acc b.toNat =
      if b = a then Cells.get s.acc a.toNat ||| 2#2 else Cells.get s.acc b.toNat)

/-- R160, R161, R166: a push writes the byte at `0x0100 + S` and moves `S` down modulo 0x100, a pull moves `S` up and reads
there; a pull after a push gives the byte and `S` back. Every other byte reads as before. -/
def Obligations.PushAndPull : Prop :=
  ∀ (s : State) (v : Byte), stateWf s = true →
    peek (push v s) (0x0100#16 + BitVec.ofNat 16 s.sp.toNat) = v ∧
    (push v s).sp.toNat = (s.sp.toNat + 255) % 256 ∧
    (∀ b : Word, hasByte s b = true → ¬ StoreReaches s (0x0100#16 + BitVec.ofNat 16 s.sp.toNat) b →
      peek (push v s) b = peek s b) ∧
    (pull s).2.sp.toNat = (s.sp.toNat + 1) % 256 ∧
    (pull s).1 = peek s (0x0100#16 + BitVec.ofNat 16 ((s.sp.toNat + 1) % 256)) ∧
    (pull (push v s)).1 = v ∧ (pull (push v s)).2.sp = s.sp

/-! Port B and the EEPROM. -/

/-- R301, R304 (the polarity and the read path are decisions D18, D19): an output pin carries its data bit on the line and
in the pin levels; an input pin's line is 1, and its pin level is 1 but for the EEPROM data pin, which shows
`ee_output`. -/
def Obligations.PortBLevels : Prop :=
  ∀ (s : State) (k : Nat), k < 8 →
    (portBLines s).getLsbD k =
      (if (regByte s s.params.regPbDir).getLsbD k then (regByte s s.params.regPbData).getLsbD k else true) ∧
    (portBPins s).getLsbD k =
      (if (regByte s s.params.regPbDir).getLsbD k then (regByte s s.params.regPbData).getLsbD k
       else if k = s.params.pbDataBit.val then s.ee.output else true)

/-- R312, R313 (that the levels are always stored is D24): without power the device is DISABLED with its output 1; with
power and no clock or data edge nothing happens; the last-seen levels are stored in both cases. -/
def Obligations.EepromPowerAndIdle : Prop :=
  ∀ (w : Nat) (e : Eeprom),
    (∀ c d, eeUpdate w false c d e =
      { e with mode := .disabled, output := true, lastPow := false, lastClk := c, lastData := d }) ∧
    eeUpdate w true e.lastClk e.lastData e = { e with lastPow := true }

/-- R315, R314, R326: with power and the new clock level 1, a falling data line is a START in every state (COMMAND,
counters zero) and a rising one a STOP (DISABLED, with a save event exactly from WRITE); nothing else but the last-seen
levels changes, and the violation flag is set exactly when the clock rose in the same call (recovery: D25). -/
def Obligations.EepromStartAndStop : Prop :=
  ∀ (w : Nat) (e : Eeprom),
    (e.lastData = true → eeUpdate w true true false e = { e with
      mode := .command, bits := 0, bytes := 0, lastPow := true, lastClk := true, lastData := false
      violation := e.violation || !e.lastClk }) ∧
    (e.lastData = false → eeUpdate w true true true e = { e with
      mode := .disabled, lastPow := true, lastClk := true, lastData := true
      saves := if e.mode = .write then e.saves ++ [e.array] else e.saves
      violation := e.violation || !e.lastClk })

/-- R317, R318, R316, R325 (what counts and what is shifted in: D20, D23): in a state that is not DISABLED a clock rise
shifts the data line into `ee_in`, a clock fall with `ee_bits` below 8 shifts `ee_out` onto the line and counts; a data
edge with the clock low does nothing; in DISABLED none of them does anything. A clock fall with a data edge in the same
call is a clock fall, and sets the violation flag (R314, recovery: D25, log 19); a clock rise with a data edge is a START
or STOP (`EepromStartAndStop`). -/
def Obligations.EepromClockEdges : Prop :=
  ∀ (w : Nat) (e : Eeprom) (d : Bool),
    (e.mode ≠ .disabled → e.lastClk = false → e.lastData = d → eeUpdate w true true d e = { e with
      inp := BitVec.ofNat 8 (2 * e.inp.toNat + d.toNat), lastPow := true, lastClk := true }) ∧
    (e.mode ≠ .disabled → e.bits < 8 → e.lastClk = true → eeUpdate w true false d e = { e with
      output := e.out.msb, out := BitVec.ofNat 8 (2 * e.out.toNat), bits := e.bits + 1, lastPow := true
      lastClk := false, lastData := d, violation := e.violation || e.lastData != d }) ∧
    (e.lastClk = false → eeUpdate w true false d e = { e with lastPow := true, lastData := d }) ∧
    (e.mode = .disabled → ∀ c, e.lastData = d → eeUpdate w true c d e = { e with lastPow := true, lastClk := c }) ∧
    (e.mode = .disabled → e.lastClk = true → eeUpdate w true false d e = { e with
      lastPow := true, lastClk := false, lastData := d, violation := e.violation || e.lastData != d })

/-- R319 to R324 (the command patterns are D21, the address order D22): the clock fall that finds `ee_bits = 8` dispatches
the byte `b = ee_in` by the state, drives the acknowledge level and clears the counter. A data edge in the same call
changes none of it but sets the violation flag (R314, recovery: D25, log 19). -/
def Obligations.EepromByteDispatch : Prop :=
  ∀ (w : Nat) (e : Eeprom) (d : Bool), e.lastClk = true → e.bits = 8 →
    let u := eeUpdate w true false d e
    let base : Eeprom := { e with
      lastPow := true, lastClk := false, lastData := d, bits := 0, output := false
      violation := e.violation || e.lastData != d }
    (e.mode = .command → e.inp.toNat / 16 = 0xA → e.inp.toNat % 2 = 0 →
      u = { base with mode := .address, addr := 0, bytes := 0 }) ∧
    (e.mode = .command → e.inp.toNat / 16 = 0xA → e.inp.toNat % 2 = 1 →
      u = { base with mode := .read, out := e.array.get e.addr, addr := (e.addr + 1) % 2 ^ w }) ∧
    (e.mode = .command → e.inp.toNat / 16 ≠ 0xA → u = { base with mode := .disabled, output := true }) ∧
    (e.mode = .address → u = { base with
      addr := (e.addr * 256 + e.inp.toNat) % 2 ^ w, bytes := e.bytes + 1
      mode := if w ≤ 8 * (e.bytes + 1) then .write else .address }) ∧
    (e.mode = .read → u = { base with out := e.array.get e.addr, addr := (e.addr + 1) % 2 ^ w }) ∧
    (e.mode = .write → u = { base with array := e.array.set e.addr e.inp, addr := (e.addr + 1) % 2 ^ w })

/-- R323, R326, R312: whatever the lines do, the array changes only by a dispatch in WRITE, which stores `ee_in` at
`ee_addr`; a save event is emitted only by a STOP from WRITE and carries the whole array. -/
def Obligations.EepromArrayAndSaveEvents : Prop :=
  ∀ (w : Nat) (e : Eeprom) (p c d : Bool), e.bits ≤ 8 →
    ((eeUpdate w p c d e).array = e.array ∨
      (e.mode = .write ∧ e.bits = 8 ∧ p = true ∧ e.lastClk = true ∧ c = false ∧
        (eeUpdate w p c d e).array = e.array.set e.addr e.inp)) ∧
    ((eeUpdate w p c d e).saves = e.saves ∨
      (e.mode = .write ∧ p = true ∧ c = true ∧ e.lastData = false ∧ d = true ∧
        (eeUpdate w p c d e).saves = e.saves ++ [e.array]))

/-- R328 (the command class and the order of the address bytes are decisions D21, D22, log 32): "a write session
(START, command 0xA0-class, N address bytes, M data bytes, STOP) followed by a read session at the same starting
address returns the same M bytes in order", for every address width, every device state with both lines high and a
canonical array, every start address and up to a capacity's worth of data; and every byte sent is acknowledged. -/
def Obligations.EepromRoundTrip : Prop :=
  ∀ (w : Nat) (e : Eeprom) (address data : List Byte), 1 ≤ w → eepromWf w e = true → e.lastClk = true →
    e.lastData = true → address.length = (w + 7) / 8 → data.length ≤ 2 ^ w →
    (∀ k ∈ (eeWriteSession w address data e).1, k = false) ∧
    (eeReadSession w address data.length (eeWriteSession w address data e).2).1 = data

/-! Addressing modes and instructions. -/

/-- R105 to R112: a data mode resolves to the location its rule gives, with its wraps (D5), and resolving it makes reads
and nothing else. That an immediate location is the operand's byte, which the step has read from its address, where R106
gives the address itself, is the model's choice (log 15). -/
def Obligations.AddressingModesResolve : Prop :=
  ∀ (m : Mode) (s : State), SameButReads s (resolve m s).2 ∧
    (∀ a, effectiveAddress m s = some a → (resolve m s).1 = .mem a ∧ (resolve m s).2.freeCtr = s.freeCtr) ∧
    (∀ d, m = .imm d → resolve m s = (.imm d, s)) ∧ (m = .acc → resolve m s = (.acc, s))

/-- R141 to R143: LDA, LDX and LDY in every form complete: the operand goes into the register, `N` is its bit 7, `Z` says
that it is 0, and nothing else changes but what the reads leave. -/
def Obligations.LoadsPutOperandInRegister : Prop :=
  ∀ (i : Instr) (s : State), i.mnemonic = .lda ∨ i.mnemonic = .ldx ∨ i.mnemonic = .ldy →
    ∃ (v : Byte) (t : State), OperandIs i.mode s v ∧ exec i s = .next t ∧
      SameButReads { s with
        a := if i.mnemonic = .lda then v else s.a
        x := if i.mnemonic = .ldx then v else s.x
        y := if i.mnemonic = .ldy then v else s.y
        flags := { s.flags with n := v.msb, z := decide (v = 0#8) } } t

/-- R144 to R146: STA, STX and STY in every form complete with exactly one bus write, of the register, to the effective
address, after the mode's pointer reads; no flag changes. -/
def Obligations.StoresWriteRegister : Prop :=
  ∀ (i : Instr) (s : State), i.mnemonic = .sta ∨ i.mnemonic = .stx ∨ i.mnemonic = .sty →
    ∃ (a : Word) (u : State), effectiveAddress i.mode s = some a ∧ SameButReads s u ∧
      exec i s = .next (busWrite u a
        (if i.mnemonic = .sta then s.a else if i.mnemonic = .stx then s.x else s.y))

/-- R147 to R152: the six transfers complete: the source goes into the destination, `N` and `Z` come from it except by
TXS, which writes no flag; no bus access is made and nothing else changes. -/
def Obligations.TransfersCopyRegister : Prop :=
  ∀ s : State,
    exec .tax s = .next { s with x := s.a, flags := { s.flags with n := s.a.msb, z := decide (s.a = 0#8) } } ∧
    exec .tay s = .next { s with y := s.a, flags := { s.flags with n := s.a.msb, z := decide (s.a = 0#8) } } ∧
    exec .txa s = .next { s with a := s.x, flags := { s.flags with n := s.x.msb, z := decide (s.x = 0#8) } } ∧
    exec .tya s = .next { s with a := s.y, flags := { s.flags with n := s.y.msb, z := decide (s.y = 0#8) } } ∧
    exec .tsx s = .next { s with x := s.sp, flags := { s.flags with n := s.sp.msb, z := decide (s.sp = 0#8) } } ∧
    exec .txs s = .next { s with sp := s.x }

/-- R162 to R165, R27, R28 (the break bit of PHP and the ignored bits of PLP are D6): PHA pushes `A`; PHP pushes
`N V 1 1 D I Z C`; PLA pulls `A` with `N` and `Z`; PLP pulls all six flags. -/
def Obligations.StackInstructions : Prop :=
  ∀ s : State,
    exec .pha s = .next (push s.a s) ∧
    (∃ p : Byte, exec .php s = .next (push p s) ∧ p.getLsbD 7 = s.flags.n ∧ p.getLsbD 6 = s.flags.v ∧
      p.getLsbD 5 = true ∧ p.getLsbD 4 = true ∧ p.getLsbD 3 = s.flags.d ∧ p.getLsbD 2 = s.flags.i ∧
      p.getLsbD 1 = s.flags.z ∧ p.getLsbD 0 = s.flags.c) ∧
    (∃ t, exec .pla s = .next t ∧ SameButReads { s with
      a := s.ram.get (0x100 + (s.sp.toNat + 1) % 256), sp := s.sp + 1
      flags := { s.flags with n := t.a.msb, z := decide (t.a = 0#8) } } t) ∧
    (∃ t, exec .plp s = .next t ∧ ∀ b : Byte, b = s.ram.get (0x100 + (s.sp.toNat + 1) % 256) →
      SameButReads { s with
        sp := s.sp + 1
        flags := { n := b.getLsbD 7, v := b.getLsbD 6, d := b.getLsbD 3, i := b.getLsbD 2, z := b.getLsbD 1,
                   c := b.getLsbD 0 } } t)

/-- R171: ADC in every form completes, in binary whatever `D` holds (decision D2, log 21): `A` becomes `A + m + C`
modulo 256; `C` is the unsigned overflow; `V` is set exactly when the signed sum lies outside −128..127; `N` and `Z`
come from the result; `I` and `D` stay, and so does everything else but what the reads leave. -/
def Obligations.AdcAdds : Prop :=
  ∀ (i : Instr) (s : State), i.mnemonic = .adc →
    ∃ (m : Byte) (t : State), OperandIs i.mode s m ∧ exec i s = .next t ∧
      t.a = BitVec.ofNat 8 (s.a.toNat + m.toNat + s.flags.c.toNat) ∧
      t.flags.c = decide (256 ≤ s.a.toNat + m.toNat + s.flags.c.toNat) ∧
      t.flags.v = (decide (s.a.toInt + m.toInt + (s.flags.c.toNat : Int) < -128) ||
        decide (127 < s.a.toInt + m.toInt + (s.flags.c.toNat : Int))) ∧
      SameButReads { s with a := t.a, flags := { s.flags with
        c := t.flags.c, v := t.flags.v, n := t.a.msb, z := decide (t.a = 0#8) } } t

/-- R173: SBC in every form completes, in binary whatever `D` holds (decision D2, log 21): `A` becomes `A − m − (1 −
C)` modulo 256; `C` after it says that there was no borrow; `V` is set exactly when the signed difference lies outside
−128..127; the rest as ADC. -/
def Obligations.SbcSubtracts : Prop :=
  ∀ (i : Instr) (s : State), i.mnemonic = .sbc →
    ∃ (m : Byte) (t : State), OperandIs i.mode s m ∧ exec i s = .next t ∧
      t.a = BitVec.ofInt 8 ((s.a.toNat : Int) - m.toNat - (1 - s.flags.c.toNat)) ∧
      t.flags.c = decide (m.toNat + (1 - s.flags.c.toNat) ≤ s.a.toNat) ∧
      t.flags.v = (decide (s.a.toInt - m.toInt - (1 - (s.flags.c.toNat : Int)) < -128) ||
        decide (127 < s.a.toInt - m.toInt - (1 - (s.flags.c.toNat : Int)))) ∧
      SameButReads { s with a := t.a, flags := { s.flags with
        c := t.flags.c, v := t.flags.v, n := t.a.msb, z := decide (t.a = 0#8) } } t

/-- R174 to R176: AND, ORA and EOR in every form complete: each bit of `A` becomes the operation of its bit and the
operand's; `N` and `Z` come from the result; `C` and `V` stay. -/
def Obligations.LogicOperations : Prop :=
  ∀ (i : Instr) (s : State), i.mnemonic = .and ∨ i.mnemonic = .ora ∨ i.mnemonic = .eor →
    ∃ (m : Byte) (t : State), OperandIs i.mode s m ∧ exec i s = .next t ∧
      (∀ k, k < 8 → t.a.getLsbD k =
        if i.mnemonic = .and then (s.a.getLsbD k && m.getLsbD k)
        else if i.mnemonic = .ora then (s.a.getLsbD k || m.getLsbD k)
        else (s.a.getLsbD k != m.getLsbD k)) ∧
      SameButReads { s with a := t.a, flags := { s.flags with n := t.a.msb, z := decide (t.a = 0#8) } } t

/-- R177 to R180: CMP, CPX, CPY and BIT in every form complete and write flags alone. A compare of the register `r` with
`m`: `C` says `r ≥ m` unsigned, `Z` says `r = m`, `N` is bit 7 of the difference, `V` stays. BIT: `Z` says that `A` and `m`
have no common bit, `N` and `V` are bits 7 and 6 of `m`, `C` stays. -/
def Obligations.ComparesSetFlags : Prop :=
  (∀ (i : Instr) (s : State), i.mnemonic = .cmp ∨ i.mnemonic = .cpx ∨ i.mnemonic = .cpy →
    ∃ (m : Byte) (t : State), OperandIs i.mode s m ∧ exec i s = .next t ∧
      ∀ r : Byte, r = (if i.mnemonic = .cmp then s.a else if i.mnemonic = .cpx then s.x else s.y) →
        SameButReads { s with flags := { s.flags with
          c := decide (m.toNat ≤ r.toNat), z := decide (r = m), n := (r - m).msb } } t) ∧
  (∀ (i : Instr) (s : State), i.mnemonic = .bit →
    ∃ (m : Byte) (t : State), OperandIs i.mode s m ∧ exec i s = .next t ∧
      SameButReads { s with flags := { s.flags with
        z := decide (∀ k : Fin 8, s.a.getLsbD k = false ∨ m.getLsbD k = false), n := m.msb
        v := m.getLsbD 6 } } t)

/-- R190 to R194: ASL, LSR, ROL and ROR complete on `A`, where the result goes into `A` with no bus access (R105), and
on memory: one read of the location, then one write of it (that the old value is not written back first is decision D3,
log 22).
ASL doubles, LSR halves, the bit shifted out is `C`; ROL and ROR rotate the nine bits of `C` and the operand by one. `N`
and `Z` come from the result; `V` stays. -/
def Obligations.ShiftsAndRotates : Prop :=
  ∀ (i : Instr) (s : State),
    i.mnemonic = .asl ∨ i.mnemonic = .lsr ∨ i.mnemonic = .rol ∨ i.mnemonic = .ror →
    ∃ (m r : Byte) (c : Bool) (u : State), OperandIs i.mode s m ∧ SameButReads s u ∧
      ((i.mode = .acc ∧ exec i s = .next { s with
          a := r, flags := { s.flags with c := c, n := r.msb, z := decide (r = 0#8) } }) ∨
       ∃ a, effectiveAddress i.mode s = some a ∧ (resolve i.mode s).1 = .mem a ∧
        exec i s = .next ((busWrite u a r).setFlags { s.flags with c := c, n := r.msb, z := decide (r = 0#8) })) ∧
      (i.mnemonic = .asl → r.toNat = 2 * m.toNat % 256 ∧ c = decide (128 ≤ m.toNat)) ∧
      (i.mnemonic = .lsr → r.toNat = m.toNat / 2 ∧ c = decide (m.toNat % 2 = 1)) ∧
      (i.mnemonic = .rol → BitVec.ofBool c ++ r = (BitVec.ofBool s.flags.c ++ m).rotateLeft 1) ∧
      (i.mnemonic = .ror → BitVec.ofBool c ++ r = (BitVec.ofBool s.flags.c ++ m).rotateRight 1)

/-- R195 to R200: INC and DEC complete with one read and one write of their location (decision D3, log 22); INX, INY, DEX
and DEY change their register with no bus access; each by one modulo 256, with `N` and `Z` from the result, `C` and `V`
unchanged. -/
def Obligations.IncrementsAndDecrements : Prop :=
  (∀ (i : Instr) (s : State), i.mnemonic = .inc ∨ i.mnemonic = .dec →
    ∃ (a : Word) (m r : Byte) (u : State), effectiveAddress i.mode s = some a ∧ m = peek s a ∧ SameButReads s u ∧
      r.toNat = (if i.mnemonic = .inc then m.toNat + 1 else m.toNat + 255) % 256 ∧
      exec i s = .next ((busWrite u a r).setFlags { s.flags with n := r.msb, z := decide (r = 0#8) })) ∧
  (∀ s : State, ∃ p q : Byte, p.toNat = (s.x.toNat + 1) % 256 ∧ q.toNat = (s.x.toNat + 255) % 256 ∧
    exec .inx s = .next { s with x := p, flags := { s.flags with n := p.msb, z := decide (p = 0#8) } } ∧
    exec .dex s = .next { s with x := q, flags := { s.flags with n := q.msb, z := decide (q = 0#8) } }) ∧
  (∀ s : State, ∃ p q : Byte, p.toNat = (s.y.toNat + 1) % 256 ∧ q.toNat = (s.y.toNat + 255) % 256 ∧
    exec .iny s = .next { s with y := p, flags := { s.flags with n := p.msb, z := decide (p = 0#8) } } ∧
    exec .dey s = .next { s with y := q, flags := { s.flags with n := q.msb, z := decide (q = 0#8) } })

/-- R211 to R214 (JMP indirect takes the high byte at `p + 1`: D4): JMP loads its target; JSR pushes the address of its
last byte, high byte first, and loads its target; RTS pulls a word, low byte first, and loads it plus one; JSR then RTS
comes back to the instruction after the JSR. `PC` is the address of the next instruction when the operation runs
(R24). -/
def Obligations.JumpsAndSubroutines : Prop :=
  ∀ (s : State) (a : Word),
    exec (.jmpAbs a) s = .next { s with pc := a } ∧
    (∃ t, exec (.jmpInd a) s = .next t ∧ SameButReads { s with pc := t.pc } t ∧
      (hasByte s a = true → hasByte s (a + 1) = true → t.pc = wordOf (peek s (a + 1)) (peek s a))) ∧
    exec (.jsr a) s = .next ((push (loByte (s.pc - 1)) (push (hiByte (s.pc - 1)) s)).setPc a) ∧
    (∃ t, exec .rts s = .next t ∧ SameButReads { s with
      sp := s.sp + 2
      pc := wordOf (s.ram.get (0x100 + (s.sp + 2).toNat)) (s.ram.get (0x100 + (s.sp + 1).toNat)) + 1 } t) ∧
    (stateWf s = true → ∃ t u, exec (.jsr a) s = .next t ∧ exec .rts t = .next u ∧ u.pc = s.pc ∧ u.sp = s.sp)

/-- R215 to R223: the eight branches complete: on their condition `PC` becomes the next instruction's address plus the
signed offset, modulo 0x10000; otherwise it stays; nothing else changes. -/
def Obligations.BranchesTakeOnCondition : Prop :=
  ∀ (s : State) (d : Byte) (taken : State),
    taken = { s with pc := BitVec.ofInt 16 ((s.pc.toNat : Int) + d.toInt) } →
    exec (.bcc d) s = .next (if s.flags.c = false then taken else s) ∧
    exec (.bcs d) s = .next (if s.flags.c = true then taken else s) ∧
    exec (.beq d) s = .next (if s.flags.z = true then taken else s) ∧
    exec (.bne d) s = .next (if s.flags.z = false then taken else s) ∧
    exec (.bmi d) s = .next (if s.flags.n = true then taken else s) ∧
    exec (.bpl d) s = .next (if s.flags.n = false then taken else s) ∧
    exec (.bvc d) s = .next (if s.flags.v = false then taken else s) ∧
    exec (.bvs d) s = .next (if s.flags.v = true then taken else s)

/-- R231 to R238: the flag instructions write their one flag and NOP writes nothing. -/
def Obligations.FlagInstructionsAndNop : Prop :=
  ∀ s : State,
    exec .clc s = .next { s with flags := { s.flags with c := false } } ∧
    exec .sec s = .next { s with flags := { s.flags with c := true } } ∧
    exec .cli s = .next { s with flags := { s.flags with i := false } } ∧
    exec .sei s = .next { s with flags := { s.flags with i := true } } ∧
    exec .cld s = .next { s with flags := { s.flags with d := false } } ∧
    exec .sed s = .next { s with flags := { s.flags with d := true } } ∧
    exec .clv s = .next { s with flags := { s.flags with v := false } } ∧
    exec .nop s = .next s

/-- R239 (the return address and the bits pushed are D6; the vector with nothing pending is the parameter of D10): BRK
pushes its address plus 2 and the status with bits 4 and 5 set, loads `PC` from `PRI[IRQPEND]`, sets `I`, leaves `D` and
the other flags, and changes nothing else. `PC` is BRK's address plus 1 when it runs. -/
def Obligations.BrkEntersHandler : Prop :=
  ∀ s : State, ∃ (acc : Cells 2) (p : Byte), exec .brk s = .next { s with
    ram := ((s.ram.set (0x100 + s.sp.toNat) (hiByte (s.pc + 1))).set (0x100 + (s.sp - 1).toNat)
      (loByte (s.pc + 1))).set (0x100 + (s.sp - 2).toNat) p
    sp := s.sp - 3
    pc := pri s.params (irqPend s)
    flags := { s.flags with i := true }
    acc := acc } ∧
    p.getLsbD 7 = s.flags.n ∧ p.getLsbD 6 = s.flags.v ∧ p.getLsbD 5 = true ∧ p.getLsbD 4 = true ∧
    p.getLsbD 3 = s.flags.d ∧ p.getLsbD 2 = s.flags.i ∧ p.getLsbD 1 = s.flags.z ∧ p.getLsbD 0 = s.flags.c

/-- R240, R277: RTI pulls the six flags, then `PC` low and high, and adds nothing; after an IRQ, BRK or NMI entry it
restores the flags, the pushed `PC` and `S`. -/
def Obligations.RtiRestores : Prop :=
  ∀ s : State,
    (∃ t, exec .rti s = .next t ∧ ∀ b : Byte, b = s.ram.get (0x100 + (s.sp + 1).toNat) →
      SameButReads { s with
        sp := s.sp + 3
        pc := wordOf (s.ram.get (0x100 + (s.sp + 3).toNat)) (s.ram.get (0x100 + (s.sp + 2).toNat))
        flags := { n := b.getLsbD 7, v := b.getLsbD 6, d := b.getLsbD 3, i := b.getLsbD 2, z := b.getLsbD 1,
                   c := b.getLsbD 0 } } t) ∧
    (stateWf s = true → ∀ entered, entered = nmi s ∨ entered = irq false s ∨ entered = irq true s →
      ∃ t, exec .rti entered = .next t ∧ t.pc = s.pc ∧ t.sp = s.sp ∧ t.flags = s.flags ∧ t.a = s.a ∧ t.x = s.x ∧
        t.y = s.y)

/-- R172 (decision D2): no arithmetic reads `D`: ADC and SBC make the same step whatever `D` holds, `D` itself apart. -/
def Obligations.DecimalModeIgnored : Prop :=
  ∀ (i : Instr) (s : State) (b : Bool), i.mnemonic = .adc ∨ i.mnemonic = .sbc →
    ∃ t, exec i s = .next t ∧
      exec i (s.setFlags { s.flags with d := b }) = .next (t.setFlags { t.flags with d := b })

/-- R26: each flag is written only by the instructions of its row of the table. -/
def Obligations.FlagsWrittenOnlyByTheirInstructions : Prop :=
  ∀ (i : Instr) (s t : State), exec i s = .next t →
    (t.flags.c ≠ s.flags.c → i.mnemonic ∈ [Mnemonic.adc, .sbc, .cmp, .cpx, .cpy, .asl, .lsr, .rol, .ror, .clc, .sec, .plp,
      .rti]) ∧
    (t.flags.z ≠ s.flags.z ∨ t.flags.n ≠ s.flags.n → i.mnemonic ∈ [Mnemonic.lda, .ldx, .ldy, .tax, .tay, .txa, .tya, .tsx,
      .pla, .adc, .sbc, .and, .ora, .eor, .cmp, .cpx, .cpy, .bit, .asl, .lsr, .rol, .ror, .inc, .dec, .inx, .iny, .dex,
      .dey, .plp, .rti]) ∧
    (t.flags.i ≠ s.flags.i → i.mnemonic ∈ [Mnemonic.sei, .cli, .plp, .rti, .brk]) ∧
    (t.flags.d ≠ s.flags.d → i.mnemonic ∈ [Mnemonic.sed, .cld, .plp, .rti]) ∧
    (t.flags.v ≠ s.flags.v → i.mnemonic ∈ [Mnemonic.adc, .sbc, .bit, .clv, .plp, .rti])

/-- R21 to R24, R140, R210: each register is written only by the instructions the spec names for it; the EEPROM and the
register block only by an instruction that stores into the register window; and no instruction changes `halted`, its
record, the keypad, the figure, the launch parameters or, in itself, the cycle budget. -/
def Obligations.RegistersWrittenOnlyByTheirInstructions : Prop :=
  ∀ (i : Instr) (s t : State), exec i s = .next t →
    (t.a ≠ s.a → i.mnemonic ∈ [Mnemonic.adc, .sbc, .and, .ora, .eor, .lda, .pla, .txa, .tya] ∨ i.mode = .acc) ∧
    (t.x ≠ s.x → i.mnemonic ∈ [Mnemonic.ldx, .tax, .tsx, .inx, .dex]) ∧
    (t.y ≠ s.y → i.mnemonic ∈ [Mnemonic.ldy, .tay, .iny, .dey]) ∧
    (t.sp ≠ s.sp → i.mnemonic ∈ [Mnemonic.pha, .php, .pla, .plp, .jsr, .rts, .brk, .rti, .txs]) ∧
    (t.pc ≠ s.pc → i.mnemonic ∈ [Mnemonic.bcc, .bcs, .beq, .bne, .bmi, .bpl, .bvc, .bvs, .jmp, .jsr, .rts, .rti, .brk]) ∧
    (t.reg ≠ s.reg ∨ t.ee ≠ s.ee → ∃ a ∈ storedAddresses i s, 0x3000 ≤ a.toNat ∧ a.toNat ≤ 0x3FFF) ∧
    t.halted = s.halted ∧ t.haltOpcode = s.haltOpcode ∧ t.haltAddr = s.haltAddr ∧ t.keys = s.keys ∧
    t.figure = s.figure ∧ t.params = s.params ∧ t.cycles = s.cycles

/-- R140, R160, R167, R190, R83: the frame of memory, for every instruction: every byte that exists reads as before unless
the instruction stores to an address that reaches it; an instruction that stores nothing leaves every byte. -/
def Obligations.StoresReachOnlyTheirBytes : Prop :=
  ∀ (i : Instr) (s t : State), exec i s = .next t →
    (∀ b : Word, hasByte s b = true → (∀ a ∈ storedAddresses i s, ¬ StoreReaches s a b) → peek t b = peek s b) ∧
    (storedAddresses i s = [] → t.ram = s.ram ∧ t.disp = s.disp ∧ t.reg = s.reg ∧ t.ee = s.ee)
end

