-- ==== Sys2Proof/Laws/Cells.lean ====
section
/-! SUPPORT. Sparse storage: a read after a write, the canonical form, and that canonical memories that read the same are
the same data. -/

namespace Sys2Proof.Machine

variable {w : Nat}

@[simp] theorem Cells_get_nil (n : Nat) : Cells.get ([] : Cells w) n = 0 := rfl

@[simp] theorem Cells_get_cons (k : Nat) (v : BitVec w) (rest : Cells w) (n : Nat) :
    Cells.get ((k, v) :: rest) n = if n = k then v else Cells.get rest n := rfl

/-- In a list whose indices are at least `lo`, an index below `lo` reads 0. -/
theorem Cells_get_of_lt {lo size : Nat} {m : Cells w} (h : Cells.wfFrom lo size m = true) {n : Nat} (hn : n < lo) :
    Cells.get m n = 0 := by
  induction m generalizing lo with
  | nil => rfl
  | cons p rest ih =>
    obtain ⟨k, v⟩ := p
    simp only [Cells.wfFrom, Bool.and_eq_true, decide_eq_true_eq] at h
    rw [Cells_get_cons, if_neg (by omega)]
    exact ih h.2 (by omega)

theorem Cells_wfFrom_mono {lo lo' size : Nat} (hlo : lo' ≤ lo) {m : Cells w} (h : Cells.wfFrom lo size m = true) :
    Cells.wfFrom lo' size m = true := by
  cases m with
  | nil => rfl
  | cons p rest =>
    obtain ⟨k, v⟩ := p
    simp only [Cells.wfFrom, Bool.and_eq_true, decide_eq_true_eq] at h ⊢
    exact ⟨⟨⟨by omega, h.1.1.2⟩, h.1.2⟩, h.2⟩

theorem Cells_cons_wf {lo size n : Nat} {v : BitVec w} {rest : Cells w} (hlo : lo ≤ n) (hn : n < size)
    (h : Cells.wfFrom (n + 1) size rest = true) : Cells.wfFrom lo size (Cells.cons n v rest) = true := by
  unfold Cells.cons
  split
  · exact Cells_wfFrom_mono (by omega) h
  · simp only [Cells.wfFrom, Bool.and_eq_true, decide_eq_true_eq]
    exact ⟨⟨⟨hlo, hn⟩, ‹_›⟩, h⟩

/-- A write keeps the canonical form. -/
theorem Cells_set_wfFrom {lo size n : Nat} {v : BitVec w} {m : Cells w} (hlo : lo ≤ n) (hn : n < size)
    (h : Cells.wfFrom lo size m = true) : Cells.wfFrom lo size (Cells.set m n v) = true := by
  induction m generalizing lo with
  | nil => exact Cells_cons_wf hlo hn rfl
  | cons p rest ih =>
    obtain ⟨k, u⟩ := p
    have h' := h
    simp only [Cells.wfFrom, Bool.and_eq_true, decide_eq_true_eq] at h'
    obtain ⟨⟨⟨hk, hks⟩, hu⟩, hrest⟩ := h'
    unfold Cells.set
    split
    · refine Cells_cons_wf hlo hn ?_
      simp only [Cells.wfFrom, Bool.and_eq_true, decide_eq_true_eq]
      exact ⟨⟨⟨by omega, hks⟩, hu⟩, hrest⟩
    · split
      · subst_vars; exact Cells_cons_wf hlo hn hrest
      · simp only [Cells.wfFrom, Bool.and_eq_true, decide_eq_true_eq]
        exact ⟨⟨⟨hk, hks⟩, hu⟩, ih (by omega) hrest⟩

/-- Every memory operation keeps the canonical form: a write is the only one. -/
theorem Cells_set_wf {size n : Nat} {v : BitVec w} {m : Cells w} (hn : n < size) (h : Cells.wf size m = true) :
    Cells.wf size (Cells.set m n v) = true := Cells_set_wfFrom (Nat.zero_le n) hn h

theorem Cells_get_cons_at {lo size n : Nat} {v : BitVec w} {rest : Cells w} (h : Cells.wfFrom lo size rest = true)
    (hn : n < lo) : Cells.get (Cells.cons n v rest) n = v := by
  unfold Cells.cons
  split
  · rw [Cells_get_of_lt h hn]; symm; assumption
  · simp

theorem Cells_get_cons_ne {n j : Nat} {v : BitVec w} {rest : Cells w} (h : j ≠ n) :
    Cells.get (Cells.cons n v rest) j = Cells.get rest j := by
  unfold Cells.cons
  split
  · rfl
  · simp [h]

/-- A read of the written index gives the value written. -/
theorem Cells_get_set_same {lo size n : Nat} {v : BitVec w} {m : Cells w} (h : Cells.wfFrom lo size m = true) :
    Cells.get (Cells.set m n v) n = v := by
  induction m generalizing lo with
  | nil => exact Cells_get_cons_at (lo := n + 1) (size := 0) rfl (by omega)
  | cons p rest ih =>
    obtain ⟨k, u⟩ := p
    have h' := h
    simp only [Cells.wfFrom, Bool.and_eq_true, decide_eq_true_eq] at h'
    unfold Cells.set
    split
    · refine Cells_get_cons_at (lo := k) (size := size) ?_ ‹_›
      simp only [Cells.wfFrom, Bool.and_eq_true, decide_eq_true_eq]
      exact ⟨⟨⟨Nat.le_refl k, h'.1.1.2⟩, h'.1.2⟩, h'.2⟩
    · split
      · subst_vars; exact Cells_get_cons_at h'.2 (by omega)
      · rw [Cells_get_cons, if_neg ‹_›]; exact ih h'.2

/-- A write leaves every other index alone. -/
theorem Cells_get_set_other {n j : Nat} {v : BitVec w} {m : Cells w} (hj : j ≠ n) :
    Cells.get (Cells.set m n v) j = Cells.get m j := by
  induction m with
  | nil => exact Cells_get_cons_ne hj
  | cons p rest ih =>
    obtain ⟨k, u⟩ := p
    unfold Cells.set
    split
    · exact Cells_get_cons_ne hj
    · split
      · subst_vars; rw [Cells_get_cons_ne hj, Cells_get_cons, if_neg hj]
      · rw [Cells_get_cons, Cells_get_cons, ih]

/-- Canonical storage that reads the same everywhere is the same data. -/
theorem Cells_ext {lo size lo' size' : Nat} {m m' : Cells w} (h : Cells.wfFrom lo size m = true)
    (h' : Cells.wfFrom lo' size' m' = true) (hg : ∀ n, Cells.get m n = Cells.get m' n) : m = m' := by
  induction m generalizing lo lo' m' with
  | nil =>
    cases m' with
    | nil => rfl
    | cons p rest =>
      obtain ⟨k, v⟩ := p
      simp only [Cells.wfFrom, Bool.and_eq_true, decide_eq_true_eq] at h'
      exact absurd (by simpa using (hg k).symm) h'.1.2
  | cons p rest ih =>
    obtain ⟨k, v⟩ := p
    have hh := h
    simp only [Cells.wfFrom, Bool.and_eq_true, decide_eq_true_eq] at hh
    cases m' with
    | nil => exact absurd (by simpa using hg k) hh.1.2
    | cons p' rest' =>
      obtain ⟨k', v'⟩ := p'
      have hh' := h'
      simp only [Cells.wfFrom, Bool.and_eq_true, decide_eq_true_eq] at hh'
      have hkk : k = k' := by
        rcases Nat.lt_trichotomy k k' with hlt | heq | hgt
        · have := hg k
          rw [Cells_get_cons, if_pos rfl, Cells_get_cons, if_neg (by omega), Cells_get_of_lt hh'.2 (by omega)] at this
          exact absurd this hh.1.2
        · exact heq
        · have := hg k'
          rw [Cells_get_cons, if_neg (by omega), Cells_get_of_lt hh.2 (by omega), Cells_get_cons, if_pos rfl] at this
          exact absurd this.symm hh'.1.2
      subst hkk
      have hv : v = v' := by simpa using hg k
      subst hv
      have hr : rest = rest' := ih hh.2 hh'.2 fun n => by
        by_cases hn : n = k
        · subst hn; rw [Cells_get_of_lt hh.2 (by omega), Cells_get_of_lt hh'.2 (by omega)]
        · simpa [hn] using hg n
      rw [hr]

/-- A canonical listing holds nothing at or beyond its size. -/
theorem Cells_get_of_ge {lo size n : Nat} {m : Cells w} (h : Cells.wfFrom lo size m = true) (hn : size ≤ n) :
    Cells.get m n = 0 := by
  induction m generalizing lo with
  | nil => rfl
  | cons p rest ih =>
    obtain ⟨k, v⟩ := p
    simp only [Cells.wfFrom, Bool.and_eq_true, decide_eq_true_eq] at h
    rw [Cells_get_cons, if_neg (by omega)]
    exact ih h.2

/-! The same for bytes. -/

/-- A read of the written offset gives the byte written. -/
theorem Memory_get_set_same {size n : Nat} {v : Byte} {m : Memory} (h : Memory.wf size m = true) :
    Memory.get (Memory.set m n v) n = v := Cells_get_set_same h

/-- A write leaves every other offset alone. -/
theorem Memory_get_set_other {n j : Nat} {v : Byte} {m : Memory} (hj : j ≠ n) :
    Memory.get (Memory.set m n v) j = Memory.get m j := Cells_get_set_other hj

/-- A write keeps the canonical form. -/
theorem Memory_set_wf {size n : Nat} {v : Byte} {m : Memory} (hn : n < size) (h : Memory.wf size m = true) :
    Memory.wf size (Memory.set m n v) = true := Cells_set_wf hn h

end Sys2Proof.Machine
end

