-- ==== Sys2Proof/Laws/State.lean ====
section
/-! SUPPORT. One lemma per field per update of the state, so that no proof unfolds a record update; and the forms in
which states and updates are compared. -/

namespace Sys2Proof.Machine

variable (s : State)

@[simp] theorem State.setA_a (v : Byte) : (s.setA v).a = v := rfl
@[simp] theorem State.setA_x (v : Byte) : (s.setA v).x = s.x := rfl
@[simp] theorem State.setA_y (v : Byte) : (s.setA v).y = s.y := rfl
@[simp] theorem State.setA_sp (v : Byte) : (s.setA v).sp = s.sp := rfl
@[simp] theorem State.setA_pc (v : Byte) : (s.setA v).pc = s.pc := rfl
@[simp] theorem State.setA_flags (v : Byte) : (s.setA v).flags = s.flags := rfl
@[simp] theorem State.setA_cycles (v : Byte) : (s.setA v).cycles = s.cycles := rfl
@[simp] theorem State.setA_halted (v : Byte) : (s.setA v).halted = s.halted := rfl
@[simp] theorem State.setA_haltOpcode (v : Byte) : (s.setA v).haltOpcode = s.haltOpcode := rfl
@[simp] theorem State.setA_haltAddr (v : Byte) : (s.setA v).haltAddr = s.haltAddr := rfl
@[simp] theorem State.setA_reg (v : Byte) : (s.setA v).reg = s.reg := rfl
@[simp] theorem State.setA_ram (v : Byte) : (s.setA v).ram = s.ram := rfl
@[simp] theorem State.setA_disp (v : Byte) : (s.setA v).disp = s.disp := rfl
@[simp] theorem State.setA_ee (v : Byte) : (s.setA v).ee = s.ee := rfl
@[simp] theorem State.setA_acc (v : Byte) : (s.setA v).acc = s.acc := rfl
@[simp] theorem State.setA_keys (v : Byte) : (s.setA v).keys = s.keys := rfl
@[simp] theorem State.setA_figure (v : Byte) : (s.setA v).figure = s.figure := rfl
@[simp] theorem State.setA_freeCtr (v : Byte) : (s.setA v).freeCtr = s.freeCtr := rfl
@[simp] theorem State.setA_params (v : Byte) : (s.setA v).params = s.params := rfl

@[simp] theorem State.setX_a (v : Byte) : (s.setX v).a = s.a := rfl
@[simp] theorem State.setX_x (v : Byte) : (s.setX v).x = v := rfl
@[simp] theorem State.setX_y (v : Byte) : (s.setX v).y = s.y := rfl
@[simp] theorem State.setX_sp (v : Byte) : (s.setX v).sp = s.sp := rfl
@[simp] theorem State.setX_pc (v : Byte) : (s.setX v).pc = s.pc := rfl
@[simp] theorem State.setX_flags (v : Byte) : (s.setX v).flags = s.flags := rfl
@[simp] theorem State.setX_cycles (v : Byte) : (s.setX v).cycles = s.cycles := rfl
@[simp] theorem State.setX_halted (v : Byte) : (s.setX v).halted = s.halted := rfl
@[simp] theorem State.setX_haltOpcode (v : Byte) : (s.setX v).haltOpcode = s.haltOpcode := rfl
@[simp] theorem State.setX_haltAddr (v : Byte) : (s.setX v).haltAddr = s.haltAddr := rfl
@[simp] theorem State.setX_reg (v : Byte) : (s.setX v).reg = s.reg := rfl
@[simp] theorem State.setX_ram (v : Byte) : (s.setX v).ram = s.ram := rfl
@[simp] theorem State.setX_disp (v : Byte) : (s.setX v).disp = s.disp := rfl
@[simp] theorem State.setX_ee (v : Byte) : (s.setX v).ee = s.ee := rfl
@[simp] theorem State.setX_acc (v : Byte) : (s.setX v).acc = s.acc := rfl
@[simp] theorem State.setX_keys (v : Byte) : (s.setX v).keys = s.keys := rfl
@[simp] theorem State.setX_figure (v : Byte) : (s.setX v).figure = s.figure := rfl
@[simp] theorem State.setX_freeCtr (v : Byte) : (s.setX v).freeCtr = s.freeCtr := rfl
@[simp] theorem State.setX_params (v : Byte) : (s.setX v).params = s.params := rfl

@[simp] theorem State.setY_a (v : Byte) : (s.setY v).a = s.a := rfl
@[simp] theorem State.setY_x (v : Byte) : (s.setY v).x = s.x := rfl
@[simp] theorem State.setY_y (v : Byte) : (s.setY v).y = v := rfl
@[simp] theorem State.setY_sp (v : Byte) : (s.setY v).sp = s.sp := rfl
@[simp] theorem State.setY_pc (v : Byte) : (s.setY v).pc = s.pc := rfl
@[simp] theorem State.setY_flags (v : Byte) : (s.setY v).flags = s.flags := rfl
@[simp] theorem State.setY_cycles (v : Byte) : (s.setY v).cycles = s.cycles := rfl
@[simp] theorem State.setY_halted (v : Byte) : (s.setY v).halted = s.halted := rfl
@[simp] theorem State.setY_haltOpcode (v : Byte) : (s.setY v).haltOpcode = s.haltOpcode := rfl
@[simp] theorem State.setY_haltAddr (v : Byte) : (s.setY v).haltAddr = s.haltAddr := rfl
@[simp] theorem State.setY_reg (v : Byte) : (s.setY v).reg = s.reg := rfl
@[simp] theorem State.setY_ram (v : Byte) : (s.setY v).ram = s.ram := rfl
@[simp] theorem State.setY_disp (v : Byte) : (s.setY v).disp = s.disp := rfl
@[simp] theorem State.setY_ee (v : Byte) : (s.setY v).ee = s.ee := rfl
@[simp] theorem State.setY_acc (v : Byte) : (s.setY v).acc = s.acc := rfl
@[simp] theorem State.setY_keys (v : Byte) : (s.setY v).keys = s.keys := rfl
@[simp] theorem State.setY_figure (v : Byte) : (s.setY v).figure = s.figure := rfl
@[simp] theorem State.setY_freeCtr (v : Byte) : (s.setY v).freeCtr = s.freeCtr := rfl
@[simp] theorem State.setY_params (v : Byte) : (s.setY v).params = s.params := rfl

@[simp] theorem State.setSp_a (v : Byte) : (s.setSp v).a = s.a := rfl
@[simp] theorem State.setSp_x (v : Byte) : (s.setSp v).x = s.x := rfl
@[simp] theorem State.setSp_y (v : Byte) : (s.setSp v).y = s.y := rfl
@[simp] theorem State.setSp_sp (v : Byte) : (s.setSp v).sp = v := rfl
@[simp] theorem State.setSp_pc (v : Byte) : (s.setSp v).pc = s.pc := rfl
@[simp] theorem State.setSp_flags (v : Byte) : (s.setSp v).flags = s.flags := rfl
@[simp] theorem State.setSp_cycles (v : Byte) : (s.setSp v).cycles = s.cycles := rfl
@[simp] theorem State.setSp_halted (v : Byte) : (s.setSp v).halted = s.halted := rfl
@[simp] theorem State.setSp_haltOpcode (v : Byte) : (s.setSp v).haltOpcode = s.haltOpcode := rfl
@[simp] theorem State.setSp_haltAddr (v : Byte) : (s.setSp v).haltAddr = s.haltAddr := rfl
@[simp] theorem State.setSp_reg (v : Byte) : (s.setSp v).reg = s.reg := rfl
@[simp] theorem State.setSp_ram (v : Byte) : (s.setSp v).ram = s.ram := rfl
@[simp] theorem State.setSp_disp (v : Byte) : (s.setSp v).disp = s.disp := rfl
@[simp] theorem State.setSp_ee (v : Byte) : (s.setSp v).ee = s.ee := rfl
@[simp] theorem State.setSp_acc (v : Byte) : (s.setSp v).acc = s.acc := rfl
@[simp] theorem State.setSp_keys (v : Byte) : (s.setSp v).keys = s.keys := rfl
@[simp] theorem State.setSp_figure (v : Byte) : (s.setSp v).figure = s.figure := rfl
@[simp] theorem State.setSp_freeCtr (v : Byte) : (s.setSp v).freeCtr = s.freeCtr := rfl
@[simp] theorem State.setSp_params (v : Byte) : (s.setSp v).params = s.params := rfl

@[simp] theorem State.setPc_a (v : Word) : (s.setPc v).a = s.a := rfl
@[simp] theorem State.setPc_x (v : Word) : (s.setPc v).x = s.x := rfl
@[simp] theorem State.setPc_y (v : Word) : (s.setPc v).y = s.y := rfl
@[simp] theorem State.setPc_sp (v : Word) : (s.setPc v).sp = s.sp := rfl
@[simp] theorem State.setPc_pc (v : Word) : (s.setPc v).pc = v := rfl
@[simp] theorem State.setPc_flags (v : Word) : (s.setPc v).flags = s.flags := rfl
@[simp] theorem State.setPc_cycles (v : Word) : (s.setPc v).cycles = s.cycles := rfl
@[simp] theorem State.setPc_halted (v : Word) : (s.setPc v).halted = s.halted := rfl
@[simp] theorem State.setPc_haltOpcode (v : Word) : (s.setPc v).haltOpcode = s.haltOpcode := rfl
@[simp] theorem State.setPc_haltAddr (v : Word) : (s.setPc v).haltAddr = s.haltAddr := rfl
@[simp] theorem State.setPc_reg (v : Word) : (s.setPc v).reg = s.reg := rfl
@[simp] theorem State.setPc_ram (v : Word) : (s.setPc v).ram = s.ram := rfl
@[simp] theorem State.setPc_disp (v : Word) : (s.setPc v).disp = s.disp := rfl
@[simp] theorem State.setPc_ee (v : Word) : (s.setPc v).ee = s.ee := rfl
@[simp] theorem State.setPc_acc (v : Word) : (s.setPc v).acc = s.acc := rfl
@[simp] theorem State.setPc_keys (v : Word) : (s.setPc v).keys = s.keys := rfl
@[simp] theorem State.setPc_figure (v : Word) : (s.setPc v).figure = s.figure := rfl
@[simp] theorem State.setPc_freeCtr (v : Word) : (s.setPc v).freeCtr = s.freeCtr := rfl
@[simp] theorem State.setPc_params (v : Word) : (s.setPc v).params = s.params := rfl

@[simp] theorem State.setFlags_a (f : Flags) : (s.setFlags f).a = s.a := rfl
@[simp] theorem State.setFlags_x (f : Flags) : (s.setFlags f).x = s.x := rfl
@[simp] theorem State.setFlags_y (f : Flags) : (s.setFlags f).y = s.y := rfl
@[simp] theorem State.setFlags_sp (f : Flags) : (s.setFlags f).sp = s.sp := rfl
@[simp] theorem State.setFlags_pc (f : Flags) : (s.setFlags f).pc = s.pc := rfl
@[simp] theorem State.setFlags_flags (f : Flags) : (s.setFlags f).flags = f := rfl
@[simp] theorem State.setFlags_cycles (f : Flags) : (s.setFlags f).cycles = s.cycles := rfl
@[simp] theorem State.setFlags_halted (f : Flags) : (s.setFlags f).halted = s.halted := rfl
@[simp] theorem State.setFlags_haltOpcode (f : Flags) : (s.setFlags f).haltOpcode = s.haltOpcode := rfl
@[simp] theorem State.setFlags_haltAddr (f : Flags) : (s.setFlags f).haltAddr = s.haltAddr := rfl
@[simp] theorem State.setFlags_reg (f : Flags) : (s.setFlags f).reg = s.reg := rfl
@[simp] theorem State.setFlags_ram (f : Flags) : (s.setFlags f).ram = s.ram := rfl
@[simp] theorem State.setFlags_disp (f : Flags) : (s.setFlags f).disp = s.disp := rfl
@[simp] theorem State.setFlags_ee (f : Flags) : (s.setFlags f).ee = s.ee := rfl
@[simp] theorem State.setFlags_acc (f : Flags) : (s.setFlags f).acc = s.acc := rfl
@[simp] theorem State.setFlags_keys (f : Flags) : (s.setFlags f).keys = s.keys := rfl
@[simp] theorem State.setFlags_figure (f : Flags) : (s.setFlags f).figure = s.figure := rfl
@[simp] theorem State.setFlags_freeCtr (f : Flags) : (s.setFlags f).freeCtr = s.freeCtr := rfl
@[simp] theorem State.setFlags_params (f : Flags) : (s.setFlags f).params = s.params := rfl

@[simp] theorem State.setCycles_a (k : Int) : (s.setCycles k).a = s.a := rfl
@[simp] theorem State.setCycles_x (k : Int) : (s.setCycles k).x = s.x := rfl
@[simp] theorem State.setCycles_y (k : Int) : (s.setCycles k).y = s.y := rfl
@[simp] theorem State.setCycles_sp (k : Int) : (s.setCycles k).sp = s.sp := rfl
@[simp] theorem State.setCycles_pc (k : Int) : (s.setCycles k).pc = s.pc := rfl
@[simp] theorem State.setCycles_flags (k : Int) : (s.setCycles k).flags = s.flags := rfl
@[simp] theorem State.setCycles_cycles (k : Int) : (s.setCycles k).cycles = k := rfl
@[simp] theorem State.setCycles_halted (k : Int) : (s.setCycles k).halted = s.halted := rfl
@[simp] theorem State.setCycles_haltOpcode (k : Int) : (s.setCycles k).haltOpcode = s.haltOpcode := rfl
@[simp] theorem State.setCycles_haltAddr (k : Int) : (s.setCycles k).haltAddr = s.haltAddr := rfl
@[simp] theorem State.setCycles_reg (k : Int) : (s.setCycles k).reg = s.reg := rfl
@[simp] theorem State.setCycles_ram (k : Int) : (s.setCycles k).ram = s.ram := rfl
@[simp] theorem State.setCycles_disp (k : Int) : (s.setCycles k).disp = s.disp := rfl
@[simp] theorem State.setCycles_ee (k : Int) : (s.setCycles k).ee = s.ee := rfl
@[simp] theorem State.setCycles_acc (k : Int) : (s.setCycles k).acc = s.acc := rfl
@[simp] theorem State.setCycles_keys (k : Int) : (s.setCycles k).keys = s.keys := rfl
@[simp] theorem State.setCycles_figure (k : Int) : (s.setCycles k).figure = s.figure := rfl
@[simp] theorem State.setCycles_freeCtr (k : Int) : (s.setCycles k).freeCtr = s.freeCtr := rfl
@[simp] theorem State.setCycles_params (k : Int) : (s.setCycles k).params = s.params := rfl

@[simp] theorem State.setHalt_a (h : Bool) (op : Byte) (n : Word) : (s.setHalt h op n).a = s.a := rfl
@[simp] theorem State.setHalt_x (h : Bool) (op : Byte) (n : Word) : (s.setHalt h op n).x = s.x := rfl
@[simp] theorem State.setHalt_y (h : Bool) (op : Byte) (n : Word) : (s.setHalt h op n).y = s.y := rfl
@[simp] theorem State.setHalt_sp (h : Bool) (op : Byte) (n : Word) : (s.setHalt h op n).sp = s.sp := rfl
@[simp] theorem State.setHalt_pc (h : Bool) (op : Byte) (n : Word) : (s.setHalt h op n).pc = s.pc := rfl
@[simp] theorem State.setHalt_flags (h : Bool) (op : Byte) (n : Word) : (s.setHalt h op n).flags = s.flags := rfl
@[simp] theorem State.setHalt_cycles (h : Bool) (op : Byte) (n : Word) : (s.setHalt h op n).cycles = s.cycles := rfl
@[simp] theorem State.setHalt_halted (h : Bool) (op : Byte) (n : Word) : (s.setHalt h op n).halted = h := rfl
@[simp] theorem State.setHalt_haltOpcode (h : Bool) (op : Byte) (n : Word) : (s.setHalt h op n).haltOpcode = op := rfl
@[simp] theorem State.setHalt_haltAddr (h : Bool) (op : Byte) (n : Word) : (s.setHalt h op n).haltAddr = n := rfl
@[simp] theorem State.setHalt_reg (h : Bool) (op : Byte) (n : Word) : (s.setHalt h op n).reg = s.reg := rfl
@[simp] theorem State.setHalt_ram (h : Bool) (op : Byte) (n : Word) : (s.setHalt h op n).ram = s.ram := rfl
@[simp] theorem State.setHalt_disp (h : Bool) (op : Byte) (n : Word) : (s.setHalt h op n).disp = s.disp := rfl
@[simp] theorem State.setHalt_ee (h : Bool) (op : Byte) (n : Word) : (s.setHalt h op n).ee = s.ee := rfl
@[simp] theorem State.setHalt_acc (h : Bool) (op : Byte) (n : Word) : (s.setHalt h op n).acc = s.acc := rfl
@[simp] theorem State.setHalt_keys (h : Bool) (op : Byte) (n : Word) : (s.setHalt h op n).keys = s.keys := rfl
@[simp] theorem State.setHalt_figure (h : Bool) (op : Byte) (n : Word) : (s.setHalt h op n).figure = s.figure := rfl
@[simp] theorem State.setHalt_freeCtr (h : Bool) (op : Byte) (n : Word) : (s.setHalt h op n).freeCtr = s.freeCtr := rfl
@[simp] theorem State.setHalt_params (h : Bool) (op : Byte) (n : Word) : (s.setHalt h op n).params = s.params := rfl

@[simp] theorem State.setReg_a (m : Memory) : (s.setReg m).a = s.a := rfl
@[simp] theorem State.setReg_x (m : Memory) : (s.setReg m).x = s.x := rfl
@[simp] theorem State.setReg_y (m : Memory) : (s.setReg m).y = s.y := rfl
@[simp] theorem State.setReg_sp (m : Memory) : (s.setReg m).sp = s.sp := rfl
@[simp] theorem State.setReg_pc (m : Memory) : (s.setReg m).pc = s.pc := rfl
@[simp] theorem State.setReg_flags (m : Memory) : (s.setReg m).flags = s.flags := rfl
@[simp] theorem State.setReg_cycles (m : Memory) : (s.setReg m).cycles = s.cycles := rfl
@[simp] theorem State.setReg_halted (m : Memory) : (s.setReg m).halted = s.halted := rfl
@[simp] theorem State.setReg_haltOpcode (m : Memory) : (s.setReg m).haltOpcode = s.haltOpcode := rfl
@[simp] theorem State.setReg_haltAddr (m : Memory) : (s.setReg m).haltAddr = s.haltAddr := rfl
@[simp] theorem State.setReg_reg (m : Memory) : (s.setReg m).reg = m := rfl
@[simp] theorem State.setReg_ram (m : Memory) : (s.setReg m).ram = s.ram := rfl
@[simp] theorem State.setReg_disp (m : Memory) : (s.setReg m).disp = s.disp := rfl
@[simp] theorem State.setReg_ee (m : Memory) : (s.setReg m).ee = s.ee := rfl
@[simp] theorem State.setReg_acc (m : Memory) : (s.setReg m).acc = s.acc := rfl
@[simp] theorem State.setReg_keys (m : Memory) : (s.setReg m).keys = s.keys := rfl
@[simp] theorem State.setReg_figure (m : Memory) : (s.setReg m).figure = s.figure := rfl
@[simp] theorem State.setReg_freeCtr (m : Memory) : (s.setReg m).freeCtr = s.freeCtr := rfl
@[simp] theorem State.setReg_params (m : Memory) : (s.setReg m).params = s.params := rfl

@[simp] theorem State.setRam_a (m : Memory) : (s.setRam m).a = s.a := rfl
@[simp] theorem State.setRam_x (m : Memory) : (s.setRam m).x = s.x := rfl
@[simp] theorem State.setRam_y (m : Memory) : (s.setRam m).y = s.y := rfl
@[simp] theorem State.setRam_sp (m : Memory) : (s.setRam m).sp = s.sp := rfl
@[simp] theorem State.setRam_pc (m : Memory) : (s.setRam m).pc = s.pc := rfl
@[simp] theorem State.setRam_flags (m : Memory) : (s.setRam m).flags = s.flags := rfl
@[simp] theorem State.setRam_cycles (m : Memory) : (s.setRam m).cycles = s.cycles := rfl
@[simp] theorem State.setRam_halted (m : Memory) : (s.setRam m).halted = s.halted := rfl
@[simp] theorem State.setRam_haltOpcode (m : Memory) : (s.setRam m).haltOpcode = s.haltOpcode := rfl
@[simp] theorem State.setRam_haltAddr (m : Memory) : (s.setRam m).haltAddr = s.haltAddr := rfl
@[simp] theorem State.setRam_reg (m : Memory) : (s.setRam m).reg = s.reg := rfl
@[simp] theorem State.setRam_ram (m : Memory) : (s.setRam m).ram = m := rfl
@[simp] theorem State.setRam_disp (m : Memory) : (s.setRam m).disp = s.disp := rfl
@[simp] theorem State.setRam_ee (m : Memory) : (s.setRam m).ee = s.ee := rfl
@[simp] theorem State.setRam_acc (m : Memory) : (s.setRam m).acc = s.acc := rfl
@[simp] theorem State.setRam_keys (m : Memory) : (s.setRam m).keys = s.keys := rfl
@[simp] theorem State.setRam_figure (m : Memory) : (s.setRam m).figure = s.figure := rfl
@[simp] theorem State.setRam_freeCtr (m : Memory) : (s.setRam m).freeCtr = s.freeCtr := rfl
@[simp] theorem State.setRam_params (m : Memory) : (s.setRam m).params = s.params := rfl

@[simp] theorem State.setDisp_a (m : Memory) : (s.setDisp m).a = s.a := rfl
@[simp] theorem State.setDisp_x (m : Memory) : (s.setDisp m).x = s.x := rfl
@[simp] theorem State.setDisp_y (m : Memory) : (s.setDisp m).y = s.y := rfl
@[simp] theorem State.setDisp_sp (m : Memory) : (s.setDisp m).sp = s.sp := rfl
@[simp] theorem State.setDisp_pc (m : Memory) : (s.setDisp m).pc = s.pc := rfl
@[simp] theorem State.setDisp_flags (m : Memory) : (s.setDisp m).flags = s.flags := rfl
@[simp] theorem State.setDisp_cycles (m : Memory) : (s.setDisp m).cycles = s.cycles := rfl
@[simp] theorem State.setDisp_halted (m : Memory) : (s.setDisp m).halted = s.halted := rfl
@[simp] theorem State.setDisp_haltOpcode (m : Memory) : (s.setDisp m).haltOpcode = s.haltOpcode := rfl
@[simp] theorem State.setDisp_haltAddr (m : Memory) : (s.setDisp m).haltAddr = s.haltAddr := rfl
@[simp] theorem State.setDisp_reg (m : Memory) : (s.setDisp m).reg = s.reg := rfl
@[simp] theorem State.setDisp_ram (m : Memory) : (s.setDisp m).ram = s.ram := rfl
@[simp] theorem State.setDisp_disp (m : Memory) : (s.setDisp m).disp = m := rfl
@[simp] theorem State.setDisp_ee (m : Memory) : (s.setDisp m).ee = s.ee := rfl
@[simp] theorem State.setDisp_acc (m : Memory) : (s.setDisp m).acc = s.acc := rfl
@[simp] theorem State.setDisp_keys (m : Memory) : (s.setDisp m).keys = s.keys := rfl
@[simp] theorem State.setDisp_figure (m : Memory) : (s.setDisp m).figure = s.figure := rfl
@[simp] theorem State.setDisp_freeCtr (m : Memory) : (s.setDisp m).freeCtr = s.freeCtr := rfl
@[simp] theorem State.setDisp_params (m : Memory) : (s.setDisp m).params = s.params := rfl

@[simp] theorem State.setEe_a (e : Eeprom) : (s.setEe e).a = s.a := rfl
@[simp] theorem State.setEe_x (e : Eeprom) : (s.setEe e).x = s.x := rfl
@[simp] theorem State.setEe_y (e : Eeprom) : (s.setEe e).y = s.y := rfl
@[simp] theorem State.setEe_sp (e : Eeprom) : (s.setEe e).sp = s.sp := rfl
@[simp] theorem State.setEe_pc (e : Eeprom) : (s.setEe e).pc = s.pc := rfl
@[simp] theorem State.setEe_flags (e : Eeprom) : (s.setEe e).flags = s.flags := rfl
@[simp] theorem State.setEe_cycles (e : Eeprom) : (s.setEe e).cycles = s.cycles := rfl
@[simp] theorem State.setEe_halted (e : Eeprom) : (s.setEe e).halted = s.halted := rfl
@[simp] theorem State.setEe_haltOpcode (e : Eeprom) : (s.setEe e).haltOpcode = s.haltOpcode := rfl
@[simp] theorem State.setEe_haltAddr (e : Eeprom) : (s.setEe e).haltAddr = s.haltAddr := rfl
@[simp] theorem State.setEe_reg (e : Eeprom) : (s.setEe e).reg = s.reg := rfl
@[simp] theorem State.setEe_ram (e : Eeprom) : (s.setEe e).ram = s.ram := rfl
@[simp] theorem State.setEe_disp (e : Eeprom) : (s.setEe e).disp = s.disp := rfl
@[simp] theorem State.setEe_ee (e : Eeprom) : (s.setEe e).ee = e := rfl
@[simp] theorem State.setEe_acc (e : Eeprom) : (s.setEe e).acc = s.acc := rfl
@[simp] theorem State.setEe_keys (e : Eeprom) : (s.setEe e).keys = s.keys := rfl
@[simp] theorem State.setEe_figure (e : Eeprom) : (s.setEe e).figure = s.figure := rfl
@[simp] theorem State.setEe_freeCtr (e : Eeprom) : (s.setEe e).freeCtr = s.freeCtr := rfl
@[simp] theorem State.setEe_params (e : Eeprom) : (s.setEe e).params = s.params := rfl

@[simp] theorem State.setAcc_a (m : Cells 2) : (s.setAcc m).a = s.a := rfl
@[simp] theorem State.setAcc_x (m : Cells 2) : (s.setAcc m).x = s.x := rfl
@[simp] theorem State.setAcc_y (m : Cells 2) : (s.setAcc m).y = s.y := rfl
@[simp] theorem State.setAcc_sp (m : Cells 2) : (s.setAcc m).sp = s.sp := rfl
@[simp] theorem State.setAcc_pc (m : Cells 2) : (s.setAcc m).pc = s.pc := rfl
@[simp] theorem State.setAcc_flags (m : Cells 2) : (s.setAcc m).flags = s.flags := rfl
@[simp] theorem State.setAcc_cycles (m : Cells 2) : (s.setAcc m).cycles = s.cycles := rfl
@[simp] theorem State.setAcc_halted (m : Cells 2) : (s.setAcc m).halted = s.halted := rfl
@[simp] theorem State.setAcc_haltOpcode (m : Cells 2) : (s.setAcc m).haltOpcode = s.haltOpcode := rfl
@[simp] theorem State.setAcc_haltAddr (m : Cells 2) : (s.setAcc m).haltAddr = s.haltAddr := rfl
@[simp] theorem State.setAcc_reg (m : Cells 2) : (s.setAcc m).reg = s.reg := rfl
@[simp] theorem State.setAcc_ram (m : Cells 2) : (s.setAcc m).ram = s.ram := rfl
@[simp] theorem State.setAcc_disp (m : Cells 2) : (s.setAcc m).disp = s.disp := rfl
@[simp] theorem State.setAcc_ee (m : Cells 2) : (s.setAcc m).ee = s.ee := rfl
@[simp] theorem State.setAcc_acc (m : Cells 2) : (s.setAcc m).acc = m := rfl
@[simp] theorem State.setAcc_keys (m : Cells 2) : (s.setAcc m).keys = s.keys := rfl
@[simp] theorem State.setAcc_figure (m : Cells 2) : (s.setAcc m).figure = s.figure := rfl
@[simp] theorem State.setAcc_freeCtr (m : Cells 2) : (s.setAcc m).freeCtr = s.freeCtr := rfl
@[simp] theorem State.setAcc_params (m : Cells 2) : (s.setAcc m).params = s.params := rfl

@[simp] theorem State.setFreeCtr_a (k : Nat) : (s.setFreeCtr k).a = s.a := rfl
@[simp] theorem State.setFreeCtr_x (k : Nat) : (s.setFreeCtr k).x = s.x := rfl
@[simp] theorem State.setFreeCtr_y (k : Nat) : (s.setFreeCtr k).y = s.y := rfl
@[simp] theorem State.setFreeCtr_sp (k : Nat) : (s.setFreeCtr k).sp = s.sp := rfl
@[simp] theorem State.setFreeCtr_pc (k : Nat) : (s.setFreeCtr k).pc = s.pc := rfl
@[simp] theorem State.setFreeCtr_flags (k : Nat) : (s.setFreeCtr k).flags = s.flags := rfl
@[simp] theorem State.setFreeCtr_cycles (k : Nat) : (s.setFreeCtr k).cycles = s.cycles := rfl
@[simp] theorem State.setFreeCtr_halted (k : Nat) : (s.setFreeCtr k).halted = s.halted := rfl
@[simp] theorem State.setFreeCtr_haltOpcode (k : Nat) : (s.setFreeCtr k).haltOpcode = s.haltOpcode := rfl
@[simp] theorem State.setFreeCtr_haltAddr (k : Nat) : (s.setFreeCtr k).haltAddr = s.haltAddr := rfl
@[simp] theorem State.setFreeCtr_reg (k : Nat) : (s.setFreeCtr k).reg = s.reg := rfl
@[simp] theorem State.setFreeCtr_ram (k : Nat) : (s.setFreeCtr k).ram = s.ram := rfl
@[simp] theorem State.setFreeCtr_disp (k : Nat) : (s.setFreeCtr k).disp = s.disp := rfl
@[simp] theorem State.setFreeCtr_ee (k : Nat) : (s.setFreeCtr k).ee = s.ee := rfl
@[simp] theorem State.setFreeCtr_acc (k : Nat) : (s.setFreeCtr k).acc = s.acc := rfl
@[simp] theorem State.setFreeCtr_keys (k : Nat) : (s.setFreeCtr k).keys = s.keys := rfl
@[simp] theorem State.setFreeCtr_figure (k : Nat) : (s.setFreeCtr k).figure = s.figure := rfl
@[simp] theorem State.setFreeCtr_freeCtr (k : Nat) : (s.setFreeCtr k).freeCtr = k := rfl
@[simp] theorem State.setFreeCtr_params (k : Nat) : (s.setFreeCtr k).params = s.params := rfl

/-- Two states with equal fields are equal. -/
theorem State.ext_fields {s t : State} (ha : s.a = t.a) (hx : s.x = t.x) (hy : s.y = t.y) (hsp : s.sp = t.sp)
    (hpc : s.pc = t.pc) (hf : s.flags = t.flags) (hc : s.cycles = t.cycles) (hh : s.halted = t.halted)
    (ho : s.haltOpcode = t.haltOpcode) (hn : s.haltAddr = t.haltAddr) (hr : s.reg = t.reg) (hm : s.ram = t.ram)
    (hd : s.disp = t.disp) (he : s.ee = t.ee) (hacc : s.acc = t.acc) (hk : s.keys = t.keys) (hg : s.figure = t.figure)
    (hfr : s.freeCtr = t.freeCtr) (hp : s.params = t.params) : s = t := by
  cases s; cases t; simp_all

/-- An update that writes what the field holds is no update. -/
@[simp] theorem State.setAcc_self : s.setAcc s.acc = s := rfl
@[simp] theorem State.setFreeCtr_self : s.setFreeCtr s.freeCtr = s := rfl
@[simp] theorem State.setAcc_setAcc (m m' : Cells 2) : (s.setAcc m).setAcc m' = s.setAcc m' := rfl
@[simp] theorem State.setFreeCtr_setFreeCtr (k k' : Nat) : (s.setFreeCtr k).setFreeCtr k' = s.setFreeCtr k' := rfl

end Sys2Proof.Machine
end

