-- ==== Sys2Proof/Laws/Ops.lean ====
section
/-! SUPPORT. The bus, the stack and the exceptions: what each operation changes and what it leaves. Later proofs cite
these and do not unfold the operations. -/

namespace Sys2Proof.Machine

/-! A read changes the access flags and the count of free bytes, and nothing else (R62, R83, R72). -/

@[simp] theorem busRead_fst (s : State) (a : Word) : (busRead s a).1 = peek s a := rfl

/-- Everything a read does to the state. -/
theorem busRead_snd (s : State) (a : Word) :
    (busRead s a).2 = (s.setAcc (Cells.set s.acc a.toNat (Cells.get s.acc a.toNat ||| 1))).setFreeCtr
      (if hasByte s a then s.freeCtr else s.freeCtr + 1) := by
  show drawFree (markAccess 1 s a) a = _
  have hd : decodeAddr (markAccess 1 s a) a = decodeAddr s a := rfl
  unfold drawFree hasByte
  rw [hd]
  cases decodeAddr s a <;> simp only [↓reduceIte]
  case rom off =>
    have hi : inImage (markAccess 1 s a) off = inImage s off := rfl
    rw [hi]
    by_cases hx : inImage s off = true
    · rw [if_pos hx, if_pos hx]; rfl
    · rw [if_neg hx, if_neg hx]; rfl
  all_goals rfl

/-- What a state keeps from `s` when only reads happened. -/
theorem sameButReads_refl (s : State) : SameButReads s s := rfl

theorem sameButReads_trans {s t u : State} (h : SameButReads s t) (k : SameButReads t u) : SameButReads s u := by
  unfold SameButReads at *
  rw [k, h]
  rfl

theorem sameButReads_busRead (s : State) (a : Word) : SameButReads s (busRead s a).2 := by
  unfold SameButReads
  rw [busRead_snd]
  rfl

theorem sameButReads_a {s t : State} (h : SameButReads s t) : t.a = s.a := by rw [h]; rfl
theorem sameButReads_x {s t : State} (h : SameButReads s t) : t.x = s.x := by rw [h]; rfl
theorem sameButReads_y {s t : State} (h : SameButReads s t) : t.y = s.y := by rw [h]; rfl
theorem sameButReads_sp {s t : State} (h : SameButReads s t) : t.sp = s.sp := by rw [h]; rfl
theorem sameButReads_pc {s t : State} (h : SameButReads s t) : t.pc = s.pc := by rw [h]; rfl
theorem sameButReads_flags {s t : State} (h : SameButReads s t) : t.flags = s.flags := by rw [h]; rfl
theorem sameButReads_cycles {s t : State} (h : SameButReads s t) : t.cycles = s.cycles := by rw [h]; rfl
theorem sameButReads_halted {s t : State} (h : SameButReads s t) : t.halted = s.halted := by rw [h]; rfl
theorem sameButReads_haltOpcode {s t : State} (h : SameButReads s t) : t.haltOpcode = s.haltOpcode := by rw [h]; rfl
theorem sameButReads_haltAddr {s t : State} (h : SameButReads s t) : t.haltAddr = s.haltAddr := by rw [h]; rfl
theorem sameButReads_reg {s t : State} (h : SameButReads s t) : t.reg = s.reg := by rw [h]; rfl
theorem sameButReads_ram {s t : State} (h : SameButReads s t) : t.ram = s.ram := by rw [h]; rfl
theorem sameButReads_disp {s t : State} (h : SameButReads s t) : t.disp = s.disp := by rw [h]; rfl
theorem sameButReads_ee {s t : State} (h : SameButReads s t) : t.ee = s.ee := by rw [h]; rfl
theorem sameButReads_keys {s t : State} (h : SameButReads s t) : t.keys = s.keys := by rw [h]; rfl
theorem sameButReads_figure {s t : State} (h : SameButReads s t) : t.figure = s.figure := by rw [h]; rfl
theorem sameButReads_params {s t : State} (h : SameButReads s t) : t.params = s.params := by rw [h]; rfl

@[simp] theorem busRead_a (s : State) (a : Word) : (busRead s a).2.a = s.a :=
  sameButReads_a (sameButReads_busRead s a)
@[simp] theorem busRead_x (s : State) (a : Word) : (busRead s a).2.x = s.x :=
  sameButReads_x (sameButReads_busRead s a)
@[simp] theorem busRead_y (s : State) (a : Word) : (busRead s a).2.y = s.y :=
  sameButReads_y (sameButReads_busRead s a)
@[simp] theorem busRead_sp (s : State) (a : Word) : (busRead s a).2.sp = s.sp :=
  sameButReads_sp (sameButReads_busRead s a)
@[simp] theorem busRead_pc (s : State) (a : Word) : (busRead s a).2.pc = s.pc :=
  sameButReads_pc (sameButReads_busRead s a)
@[simp] theorem busRead_flags (s : State) (a : Word) : (busRead s a).2.flags = s.flags :=
  sameButReads_flags (sameButReads_busRead s a)
@[simp] theorem busRead_cycles (s : State) (a : Word) : (busRead s a).2.cycles = s.cycles :=
  sameButReads_cycles (sameButReads_busRead s a)
@[simp] theorem busRead_halted (s : State) (a : Word) : (busRead s a).2.halted = s.halted :=
  sameButReads_halted (sameButReads_busRead s a)
@[simp] theorem busRead_haltOpcode (s : State) (a : Word) : (busRead s a).2.haltOpcode = s.haltOpcode :=
  sameButReads_haltOpcode (sameButReads_busRead s a)
@[simp] theorem busRead_haltAddr (s : State) (a : Word) : (busRead s a).2.haltAddr = s.haltAddr :=
  sameButReads_haltAddr (sameButReads_busRead s a)
@[simp] theorem busRead_reg (s : State) (a : Word) : (busRead s a).2.reg = s.reg :=
  sameButReads_reg (sameButReads_busRead s a)
@[simp] theorem busRead_ram (s : State) (a : Word) : (busRead s a).2.ram = s.ram :=
  sameButReads_ram (sameButReads_busRead s a)
@[simp] theorem busRead_disp (s : State) (a : Word) : (busRead s a).2.disp = s.disp :=
  sameButReads_disp (sameButReads_busRead s a)
@[simp] theorem busRead_ee (s : State) (a : Word) : (busRead s a).2.ee = s.ee :=
  sameButReads_ee (sameButReads_busRead s a)
@[simp] theorem busRead_keys (s : State) (a : Word) : (busRead s a).2.keys = s.keys :=
  sameButReads_keys (sameButReads_busRead s a)
@[simp] theorem busRead_figure (s : State) (a : Word) : (busRead s a).2.figure = s.figure :=
  sameButReads_figure (sameButReads_busRead s a)
@[simp] theorem busRead_params (s : State) (a : Word) : (busRead s a).2.params = s.params :=
  sameButReads_params (sameButReads_busRead s a)

@[simp] theorem busRead16_snd (s : State) (a : Word) :
    (busRead16 s a).2 = (busRead (busRead s a).2 (a + 1)).2 := rfl

theorem sameButReads_busRead16 (s : State) (a : Word) : SameButReads s (busRead16 s a).2 :=
  sameButReads_trans (sameButReads_busRead s a) (sameButReads_busRead _ _)

/-! The decoder reads the bank register and nothing else of the state. -/

theorem decodeAddr_congr {s t : State} (hr : t.reg = s.reg) (hp : t.params = s.params) (a : Word) :
    decodeAddr t a = decodeAddr s a := by
  unfold decodeAddr bank regByte
  rw [hr, hp]

theorem hasByte_congr {s t : State} (hr : t.reg = s.reg) (hp : t.params = s.params) (a : Word) :
    hasByte t a = hasByte s a := by
  simp only [hasByte, decodeAddr_congr hr hp, inImage, hp]

theorem irqPend_congr {s t : State} (hr : t.reg = s.reg) (hp : t.params = s.params) : irqPend t = irqPend s := by
  unfold irqPend regByte
  rw [hr, hp]

/-- Two states with the same stores read the same, where a byte exists. -/
theorem peek_congr {s t : State} (hr : t.reg = s.reg) (hm : t.ram = s.ram) (hd : t.disp = s.disp)
    (ho : t.ee.output = s.ee.output) (hk : t.keys = s.keys) (hg : t.figure = s.figure) (hp : t.params = s.params)
    {a : Word} (hb : hasByte s a = true) : peek t a = peek s a := by
  unfold peek
  rw [decodeAddr_congr hr hp]
  unfold hasByte at hb
  cases hdec : decodeAddr s a with
  | rom off =>
    have hin : inImage s off = true := by simpa [hdec] using hb
    have hin' : inImage t off = true := by rw [← hin]; simp only [inImage, hp]
    simp only [imageByte, hin, hin', hp, ↓reduceIte]
  | ram off => simp only [hm]
  | disp off => simp only [hd]
  | reg r => simp only [regRead, portBPins, portAIn, regBytes, regByte, hr, hp, ho, hk, hg]
  | vectorLow => simp only [irqPend_congr hr hp, hp]
  | vectorHigh => simp only [irqPend_congr hr hp, hp]

/-- Reads change no byte that exists. -/
theorem sameBytes_of_sameButReads {s t : State} (h : SameButReads s t) : SameBytes s t := fun _ hb =>
  peek_congr (sameButReads_reg h) (sameButReads_ram h) (sameButReads_disp h) (by rw [sameButReads_ee h])
    (sameButReads_keys h) (sameButReads_figure h) (sameButReads_params h) hb

/-! Where addresses lie (R64). -/

theorem toNat_zeroPage (d : Byte) : (zeroPage d).toNat = d.toNat := by
  unfold zeroPage
  simp only [BitVec.toNat_setWidth]
  have := d.isLt
  omega

theorem toNat_stackAddr (sp : Byte) : (stackAddr sp).toNat = 0x100 + sp.toNat := by
  unfold stackAddr
  have := sp.isLt
  simp only [BitVec.toNat_add, BitVec.toNat_setWidth, BitVec.toNat_ofNat]
  omega

theorem decodeAddr_ram {s : State} {a : Word} (h : a.toNat ≤ 0x0FFF) :
    decodeAddr s a = .ram (a.toNat % Config.ramSize) := by simp [decodeAddr, h]

/-- An address of the register window shows the register of its low byte, through any mirror (R68). -/
theorem decodeAddr_reg {s : State} {a : Word} (h : 0x3000 ≤ a.toNat) (h' : a.toNat ≤ 0x3FFF) :
    decodeAddr s a = .reg (BitVec.ofNat 8 a.toNat) := by
  unfold decodeAddr
  dsimp only
  rw [if_neg (by omega), if_neg (by omega), if_pos h']
  rfl

/-- A zero-page address is system RAM at its own offset (R66). -/
@[simp] theorem decodeAddr_zeroPage (s : State) (d : Byte) : decodeAddr s (zeroPage d) = .ram d.toNat := by
  have h := toNat_zeroPage d
  have := d.isLt
  rw [decodeAddr_ram (by omega), h, Nat.mod_eq_of_lt (by unfold Config.ramSize; omega)]

/-- A stack address is system RAM at offset `0x100 + S` (R23, R66). -/
@[simp] theorem decodeAddr_stackAddr (s : State) (sp : Byte) :
    decodeAddr s (stackAddr sp) = .ram (0x100 + sp.toNat) := by
  have h := toNat_stackAddr sp
  have := sp.isLt
  rw [decodeAddr_ram (by omega), h, Nat.mod_eq_of_lt (by unfold Config.ramSize; omega)]

@[simp] theorem hasByte_zeroPage (s : State) (d : Byte) : hasByte s (zeroPage d) = true := by simp [hasByte]
@[simp] theorem hasByte_stackAddr (s : State) (sp : Byte) : hasByte s (stackAddr sp) = true := by simp [hasByte]

/-! Writes, by what the address selects (R63 to R69, R75). -/

theorem busWrite_ram {s : State} {a : Word} {off : Nat} (v : Byte) (h : decodeAddr s a = .ram off) :
    busWrite s a v = (markAccess 2 s a).setRam (s.ram.set off v) := by
  have hd : decodeAddr (markAccess 2 s a) a = .ram off := h
  simp only [busWrite, writeCell, hd]
  rfl

theorem busWrite_disp {s : State} {a : Word} {off : Nat} (v : Byte) (h : decodeAddr s a = .disp off) :
    busWrite s a v = (markAccess 2 s a).setDisp (s.disp.set off v) := by
  have hd : decodeAddr (markAccess 2 s a) a = .disp off := h
  simp only [busWrite, writeCell, hd]
  rfl

theorem busWrite_reg {s : State} {a : Word} {r : Byte} (v : Byte) (h : decodeAddr s a = .reg r) :
    busWrite s a v = regWrite (markAccess 2 s a) r v := by
  have hd : decodeAddr (markAccess 2 s a) a = .reg r := h
  simp only [busWrite, writeCell, hd]

theorem busWrite_rom {s : State} {a : Word} {off : Nat} (v : Byte) (h : decodeAddr s a = .rom off) :
    busWrite s a v = markAccess 2 s a := by
  have hd : decodeAddr (markAccess 2 s a) a = .rom off := h
  simp only [busWrite, writeCell, hd]

theorem busWrite_vector {s : State} {a : Word} (v : Byte)
    (h : decodeAddr s a = .vectorLow ∨ decodeAddr s a = .vectorHigh) : busWrite s a v = markAccess 2 s a := by
  rcases h with h | h
  · have hd : decodeAddr (markAccess 2 s a) a = .vectorLow := h
    simp only [busWrite, writeCell, hd]
  · have hd : decodeAddr (markAccess 2 s a) a = .vectorHigh := h
    simp only [busWrite, writeCell, hd]

/-- A bus write into the register window is the register write, after the access flag (R63, R68). -/
theorem busWrite_window {s : State} {a : Word} (v : Byte) (h : 0x3000 ≤ a.toNat) (h' : a.toNat ≤ 0x3FFF) :
    busWrite s a v = regWrite (markAccess 2 s a) (BitVec.ofNat 8 a.toNat) v := busWrite_reg v (decodeAddr_reg h h')

/-- The fields no bus write touches. -/
theorem regWrite_frame (s : State) (r v : Byte) : ∃ m e, regWrite s r v = (s.setReg m).setEe e := by
  unfold regWrite
  split
  · exact ⟨s.reg.set r.toNat (regByte s r &&& ~~~ v), s.ee, rfl⟩
  · split
    · exact ⟨s.reg.set r.toNat v, (portBUpdate (storeReg s r v)).ee, rfl⟩
    · exact ⟨s.reg.set r.toNat v, s.ee, rfl⟩

/-- Everything a write can do: the stores and the EEPROM may change, the write flag of its own bus
address is set (R63, R90), nothing else. -/
theorem busWrite_frame (s : State) (a : Word) (v : Byte) : ∃ ram disp reg ee,
    busWrite s a v = ((((s.setRam ram).setDisp disp).setReg reg).setEe ee).setAcc
      (Cells.set s.acc a.toNat (Cells.get s.acc a.toNat ||| 2)) := by
  cases h : decodeAddr s a with
  | ram off => rw [busWrite_ram v h]; exact ⟨s.ram.set off v, s.disp, s.reg, s.ee, rfl⟩
  | disp off => rw [busWrite_disp v h]; exact ⟨s.ram, s.disp.set off v, s.reg, s.ee, rfl⟩
  | reg r =>
    rw [busWrite_reg v h]
    obtain ⟨m, e, he⟩ := regWrite_frame (markAccess 2 s a) r v
    rw [he]; exact ⟨s.ram, s.disp, m, e, rfl⟩
  | rom off => rw [busWrite_rom v h]; exact ⟨s.ram, s.disp, s.reg, s.ee, rfl⟩
  | vectorLow => rw [busWrite_vector v (.inl h)]; exact ⟨s.ram, s.disp, s.reg, s.ee, rfl⟩
  | vectorHigh => rw [busWrite_vector v (.inr h)]; exact ⟨s.ram, s.disp, s.reg, s.ee, rfl⟩

@[simp] theorem busWrite_a_eq (s : State) (a : Word) (v : Byte) : (busWrite s a v).a = s.a := by
  obtain ⟨_, _, _, _, h⟩ := busWrite_frame s a v; rw [h]; rfl
@[simp] theorem busWrite_x_eq (s : State) (a : Word) (v : Byte) : (busWrite s a v).x = s.x := by
  obtain ⟨_, _, _, _, h⟩ := busWrite_frame s a v; rw [h]; rfl
@[simp] theorem busWrite_y_eq (s : State) (a : Word) (v : Byte) : (busWrite s a v).y = s.y := by
  obtain ⟨_, _, _, _, h⟩ := busWrite_frame s a v; rw [h]; rfl
@[simp] theorem busWrite_sp_eq (s : State) (a : Word) (v : Byte) : (busWrite s a v).sp = s.sp := by
  obtain ⟨_, _, _, _, h⟩ := busWrite_frame s a v; rw [h]; rfl
@[simp] theorem busWrite_pc_eq (s : State) (a : Word) (v : Byte) : (busWrite s a v).pc = s.pc := by
  obtain ⟨_, _, _, _, h⟩ := busWrite_frame s a v; rw [h]; rfl
@[simp] theorem busWrite_flags_eq (s : State) (a : Word) (v : Byte) : (busWrite s a v).flags = s.flags := by
  obtain ⟨_, _, _, _, h⟩ := busWrite_frame s a v; rw [h]; rfl
@[simp] theorem busWrite_cycles_eq (s : State) (a : Word) (v : Byte) : (busWrite s a v).cycles = s.cycles := by
  obtain ⟨_, _, _, _, h⟩ := busWrite_frame s a v; rw [h]; rfl
@[simp] theorem busWrite_halted_eq (s : State) (a : Word) (v : Byte) : (busWrite s a v).halted = s.halted := by
  obtain ⟨_, _, _, _, h⟩ := busWrite_frame s a v; rw [h]; rfl
@[simp] theorem busWrite_haltOpcode_eq (s : State) (a : Word) (v : Byte) : (busWrite s a v).haltOpcode = s.haltOpcode := by
  obtain ⟨_, _, _, _, h⟩ := busWrite_frame s a v; rw [h]; rfl
@[simp] theorem busWrite_haltAddr_eq (s : State) (a : Word) (v : Byte) : (busWrite s a v).haltAddr = s.haltAddr := by
  obtain ⟨_, _, _, _, h⟩ := busWrite_frame s a v; rw [h]; rfl
@[simp] theorem busWrite_keys_eq (s : State) (a : Word) (v : Byte) : (busWrite s a v).keys = s.keys := by
  obtain ⟨_, _, _, _, h⟩ := busWrite_frame s a v; rw [h]; rfl
@[simp] theorem busWrite_figure_eq (s : State) (a : Word) (v : Byte) : (busWrite s a v).figure = s.figure := by
  obtain ⟨_, _, _, _, h⟩ := busWrite_frame s a v; rw [h]; rfl
@[simp] theorem busWrite_freeCtr_eq (s : State) (a : Word) (v : Byte) : (busWrite s a v).freeCtr = s.freeCtr := by
  obtain ⟨_, _, _, _, h⟩ := busWrite_frame s a v; rw [h]; rfl
@[simp] theorem busWrite_params_eq (s : State) (a : Word) (v : Byte) : (busWrite s a v).params = s.params := by
  obtain ⟨_, _, _, _, h⟩ := busWrite_frame s a v; rw [h]; rfl
@[simp] theorem busWrite_acc_eq (s : State) (a : Word) (v : Byte) :
    (busWrite s a v).acc = Cells.set s.acc a.toNat (Cells.get s.acc a.toNat ||| 2) := by
  obtain ⟨_, _, _, _, h⟩ := busWrite_frame s a v; rw [h]; rfl

/-! What the CPU's own registers, the cycle budget, the halt record, the access flags and (but for free bytes) the count
of free bytes hold changes nothing of what the bus shows. -/

@[simp] theorem decodeAddr_setA (s : State) (v : Byte) (a : Word) : decodeAddr (s.setA v) a = decodeAddr s a := rfl
@[simp] theorem hasByte_setA (s : State) (v : Byte) (a : Word) : hasByte (s.setA v) a = hasByte s a := rfl
@[simp] theorem peek_setA (s : State) (v : Byte) (a : Word) : peek (s.setA v) a = peek s a := rfl
@[simp] theorem irqPend_setA (s : State) (v : Byte) : irqPend (s.setA v) = irqPend s := rfl
@[simp] theorem decodeAddr_setX (s : State) (v : Byte) (a : Word) : decodeAddr (s.setX v) a = decodeAddr s a := rfl
@[simp] theorem hasByte_setX (s : State) (v : Byte) (a : Word) : hasByte (s.setX v) a = hasByte s a := rfl
@[simp] theorem peek_setX (s : State) (v : Byte) (a : Word) : peek (s.setX v) a = peek s a := rfl
@[simp] theorem irqPend_setX (s : State) (v : Byte) : irqPend (s.setX v) = irqPend s := rfl
@[simp] theorem decodeAddr_setY (s : State) (v : Byte) (a : Word) : decodeAddr (s.setY v) a = decodeAddr s a := rfl
@[simp] theorem hasByte_setY (s : State) (v : Byte) (a : Word) : hasByte (s.setY v) a = hasByte s a := rfl
@[simp] theorem peek_setY (s : State) (v : Byte) (a : Word) : peek (s.setY v) a = peek s a := rfl
@[simp] theorem irqPend_setY (s : State) (v : Byte) : irqPend (s.setY v) = irqPend s := rfl
@[simp] theorem decodeAddr_setSp (s : State) (v : Byte) (a : Word) : decodeAddr (s.setSp v) a = decodeAddr s a := rfl
@[simp] theorem hasByte_setSp (s : State) (v : Byte) (a : Word) : hasByte (s.setSp v) a = hasByte s a := rfl
@[simp] theorem peek_setSp (s : State) (v : Byte) (a : Word) : peek (s.setSp v) a = peek s a := rfl
@[simp] theorem irqPend_setSp (s : State) (v : Byte) : irqPend (s.setSp v) = irqPend s := rfl
@[simp] theorem decodeAddr_setPc (s : State) (v : Word) (a : Word) : decodeAddr (s.setPc v) a = decodeAddr s a := rfl
@[simp] theorem hasByte_setPc (s : State) (v : Word) (a : Word) : hasByte (s.setPc v) a = hasByte s a := rfl
@[simp] theorem peek_setPc (s : State) (v : Word) (a : Word) : peek (s.setPc v) a = peek s a := rfl
@[simp] theorem irqPend_setPc (s : State) (v : Word) : irqPend (s.setPc v) = irqPend s := rfl
@[simp] theorem decodeAddr_setFlags (s : State) (f : Flags) (a : Word) : decodeAddr (s.setFlags f) a = decodeAddr s a := rfl
@[simp] theorem hasByte_setFlags (s : State) (f : Flags) (a : Word) : hasByte (s.setFlags f) a = hasByte s a := rfl
@[simp] theorem peek_setFlags (s : State) (f : Flags) (a : Word) : peek (s.setFlags f) a = peek s a := rfl
@[simp] theorem irqPend_setFlags (s : State) (f : Flags) : irqPend (s.setFlags f) = irqPend s := rfl
@[simp] theorem decodeAddr_setCycles (s : State) (k : Int) (a : Word) : decodeAddr (s.setCycles k) a = decodeAddr s a := rfl
@[simp] theorem hasByte_setCycles (s : State) (k : Int) (a : Word) : hasByte (s.setCycles k) a = hasByte s a := rfl
@[simp] theorem peek_setCycles (s : State) (k : Int) (a : Word) : peek (s.setCycles k) a = peek s a := rfl
@[simp] theorem irqPend_setCycles (s : State) (k : Int) : irqPend (s.setCycles k) = irqPend s := rfl
@[simp] theorem decodeAddr_setHalt (s : State) (h : Bool) (op : Byte) (n : Word) (a : Word) : decodeAddr (s.setHalt h op n) a = decodeAddr s a := rfl
@[simp] theorem hasByte_setHalt (s : State) (h : Bool) (op : Byte) (n : Word) (a : Word) : hasByte (s.setHalt h op n) a = hasByte s a := rfl
@[simp] theorem peek_setHalt (s : State) (h : Bool) (op : Byte) (n : Word) (a : Word) : peek (s.setHalt h op n) a = peek s a := rfl
@[simp] theorem irqPend_setHalt (s : State) (h : Bool) (op : Byte) (n : Word) : irqPend (s.setHalt h op n) = irqPend s := rfl
@[simp] theorem decodeAddr_setAcc (s : State) (m : Cells 2) (a : Word) : decodeAddr (s.setAcc m) a = decodeAddr s a := rfl
@[simp] theorem hasByte_setAcc (s : State) (m : Cells 2) (a : Word) : hasByte (s.setAcc m) a = hasByte s a := rfl
@[simp] theorem peek_setAcc (s : State) (m : Cells 2) (a : Word) : peek (s.setAcc m) a = peek s a := rfl
@[simp] theorem irqPend_setAcc (s : State) (m : Cells 2) : irqPend (s.setAcc m) = irqPend s := rfl

/-! Port A (R330). -/

/-- The bit of a pressed key is set among the pressed keys' bits. -/
theorem pressedKeys_bit (keys : BitVec 4) (k : Fin 4) (h : keys.getLsbD k.val = false) :
    (pressedKeys keys).getLsbD (Config.portAKeyBit k).val = true := by
  have hk : (pressedKey keys k).getLsbD (Config.portAKeyBit k).val = true := by
    unfold pressedKey
    rw [h]
    generalize Config.portAKeyBit k = b
    revert b
    decide
  unfold pressedKeys
  simp only [BitVec.getLsbD_or]
  match k with
  | 0 => rw [hk]; simp
  | 1 => rw [hk]; simp
  | 2 => rw [hk]; simp
  | 3 => rw [hk]; simp

/-- Port A reads `PORTA_IN` of the keypad, the figure's presence and the registers (R330, D30). -/
theorem portAIn_congr {s t : State} (hk : t.keys = s.keys) (hg : t.figure.isSome = s.figure.isSome)
    (hr : t.reg = s.reg) : portAIn t = portAIn s := by
  unfold portAIn regBytes
  rw [hk, hg, hr]

/-! The stack (R160, R161). -/

/-- Everything a push does: one RAM byte, its access flag, and `S`. -/
theorem push_eq (v : Byte) (s : State) : push v s =
    ((markAccess 2 s (stackAddr s.sp)).setRam (s.ram.set (0x100 + s.sp.toNat) v)).setSp (s.sp - 1) := by
  unfold push
  rw [busWrite_ram v (decodeAddr_stackAddr s s.sp)]

/-- The byte a pull returns (R161). -/
@[simp] theorem pull_fst (s : State) : (pull s).1 = s.ram.get (0x100 + (s.sp + 1).toNat) := by
  show peek (s.setSp (s.sp + 1)) (stackAddr (s.sp + 1)) = _
  simp [peek]

/-- Everything a pull does to the state: `S` and one access flag. -/
theorem pull_snd (s : State) : (pull s).2 = markAccess 1 (s.setSp (s.sp + 1)) (stackAddr (s.sp + 1)) := by
  show (busRead (s.setSp (s.sp + 1)) (stackAddr (s.sp + 1))).2 = _
  rw [busRead_snd, if_pos (hasByte_stackAddr _ _)]
  rfl

@[simp] theorem push_a (v : Byte) (s : State) : (push v s).a = s.a := by rw [push_eq]; rfl
@[simp] theorem push_x (v : Byte) (s : State) : (push v s).x = s.x := by rw [push_eq]; rfl
@[simp] theorem push_y (v : Byte) (s : State) : (push v s).y = s.y := by rw [push_eq]; rfl
@[simp] theorem push_pc (v : Byte) (s : State) : (push v s).pc = s.pc := by rw [push_eq]; rfl
@[simp] theorem push_flags (v : Byte) (s : State) : (push v s).flags = s.flags := by rw [push_eq]; rfl
@[simp] theorem push_cycles (v : Byte) (s : State) : (push v s).cycles = s.cycles := by rw [push_eq]; rfl
@[simp] theorem push_halted (v : Byte) (s : State) : (push v s).halted = s.halted := by rw [push_eq]; rfl
@[simp] theorem push_haltOpcode (v : Byte) (s : State) : (push v s).haltOpcode = s.haltOpcode := by rw [push_eq]; rfl
@[simp] theorem push_haltAddr (v : Byte) (s : State) : (push v s).haltAddr = s.haltAddr := by rw [push_eq]; rfl
@[simp] theorem push_reg (v : Byte) (s : State) : (push v s).reg = s.reg := by rw [push_eq]; rfl
@[simp] theorem push_disp (v : Byte) (s : State) : (push v s).disp = s.disp := by rw [push_eq]; rfl
@[simp] theorem push_ee (v : Byte) (s : State) : (push v s).ee = s.ee := by rw [push_eq]; rfl
@[simp] theorem push_keys (v : Byte) (s : State) : (push v s).keys = s.keys := by rw [push_eq]; rfl
@[simp] theorem push_figure (v : Byte) (s : State) : (push v s).figure = s.figure := by rw [push_eq]; rfl
@[simp] theorem push_freeCtr (v : Byte) (s : State) : (push v s).freeCtr = s.freeCtr := by rw [push_eq]; rfl
@[simp] theorem push_params (v : Byte) (s : State) : (push v s).params = s.params := by rw [push_eq]; rfl
@[simp] theorem push_sp (v : Byte) (s : State) : (push v s).sp = s.sp - 1 := by rw [push_eq]; rfl
@[simp] theorem push_ram (v : Byte) (s : State) : (push v s).ram = s.ram.set (0x100 + s.sp.toNat) v := by
  rw [push_eq]; rfl

@[simp] theorem pull_a (s : State) : (pull s).2.a = s.a := by rw [pull_snd]; rfl
@[simp] theorem pull_x (s : State) : (pull s).2.x = s.x := by rw [pull_snd]; rfl
@[simp] theorem pull_y (s : State) : (pull s).2.y = s.y := by rw [pull_snd]; rfl
@[simp] theorem pull_pc (s : State) : (pull s).2.pc = s.pc := by rw [pull_snd]; rfl
@[simp] theorem pull_flags (s : State) : (pull s).2.flags = s.flags := by rw [pull_snd]; rfl
@[simp] theorem pull_cycles (s : State) : (pull s).2.cycles = s.cycles := by rw [pull_snd]; rfl
@[simp] theorem pull_halted (s : State) : (pull s).2.halted = s.halted := by rw [pull_snd]; rfl
@[simp] theorem pull_haltOpcode (s : State) : (pull s).2.haltOpcode = s.haltOpcode := by rw [pull_snd]; rfl
@[simp] theorem pull_haltAddr (s : State) : (pull s).2.haltAddr = s.haltAddr := by rw [pull_snd]; rfl
@[simp] theorem pull_reg (s : State) : (pull s).2.reg = s.reg := by rw [pull_snd]; rfl
@[simp] theorem pull_ram (s : State) : (pull s).2.ram = s.ram := by rw [pull_snd]; rfl
@[simp] theorem pull_disp (s : State) : (pull s).2.disp = s.disp := by rw [pull_snd]; rfl
@[simp] theorem pull_ee (s : State) : (pull s).2.ee = s.ee := by rw [pull_snd]; rfl
@[simp] theorem pull_keys (s : State) : (pull s).2.keys = s.keys := by rw [pull_snd]; rfl
@[simp] theorem pull_figure (s : State) : (pull s).2.figure = s.figure := by rw [pull_snd]; rfl
@[simp] theorem pull_freeCtr (s : State) : (pull s).2.freeCtr = s.freeCtr := by rw [pull_snd]; rfl
@[simp] theorem pull_params (s : State) : (pull s).2.params = s.params := by rw [pull_snd]; rfl
@[simp] theorem pull_sp (s : State) : (pull s).2.sp = s.sp + 1 := by rw [pull_snd]; rfl

@[simp] theorem pullWord_fst (s : State) : (pullWord s).1 =
    wordOf (s.ram.get (0x100 + (s.sp + 1 + 1).toNat)) (s.ram.get (0x100 + (s.sp + 1).toNat)) := by
  simp [pullWord]

@[simp] theorem pullWord_snd (s : State) : (pullWord s).2 = (pull (pull s).2).2 := rfl

/-! Exceptions. -/

/-- The state after the three pushes of an entry (R167). -/
theorem enterInterrupt_eq (status : Byte) (vector : Word) (s : State) : enterInterrupt status vector s =
    ((busRead16 (push status (pushWord s.pc s)) vector).2).setPc
      (busRead16 (push status (pushWord s.pc s)) vector).1 := rfl

/-- A read of 0xFFFE and 0xFFFF gives `PRI[IRQPEND]` (R74). -/
theorem busRead16_irqVector (s : State) : (busRead16 s irqVector).1 = pri s.params (irqPend s) := by
  have h0 : decodeAddr s irqVector = .vectorLow := rfl
  have h1 : ∀ t : State, decodeAddr t (irqVector + 1) = .vectorHigh := fun _ => rfl
  have hp : irqPend (busRead s irqVector).2 = irqPend s := irqPend_congr (by simp) (by simp)
  show wordOf (peek (busRead s irqVector).2 (irqVector + 1)) (peek s irqVector) = _
  simp only [peek, h0, h1, hp, busRead_params]
  exact wordOf_hiByte_loByte _

/-- `State.reset` is construction followed by `reset()` (R341, R353). -/
theorem reset_eq_cpuReset_construct : State.reset = cpuReset (State.construct Params.reference [] [] []) := by
  decide

end Sys2Proof.Machine
end

