-- ==== Sys2Proof/Laws/Wf.lean ====
section
/-! SUPPORT. The shared operations keep the canonical form of every store: bus reads and writes, the EEPROM, the stack,
exception entry. -/

namespace Sys2Proof.Machine

theorem stateWf_iff (s : State) : stateWf s = true ↔
    s.params.valid = true ∧ Memory.wf s.params.imageLen s.params.image = true ∧
    Memory.wf Config.numRegs s.reg = true ∧ Memory.wf Config.ramSize s.ram = true ∧
    Memory.wf Config.dispSize s.disp = true ∧ eepromWf s.params.eeBits s.ee = true ∧
    Cells.wf Config.busSize s.acc = true := by
  simp only [stateWf, Bool.and_eq_true, and_assoc]

theorem eepromWf_iff (width : Nat) (e : Eeprom) : eepromWf width e = true ↔
    Memory.wf (eeSize width) e.array = true ∧ e.addr < eeSize width ∧ e.bits ≤ 8 ∧
    (∀ m ∈ e.saves, Memory.wf (eeSize width) m = true) := by
  simp only [eepromWf, Bool.and_eq_true, decide_eq_true_eq, List.all_eq_true, and_assoc]

/-- A state that agrees with a well-formed one on the stores, and whose access flags are canonical, is well formed. -/
theorem stateWf_of_eq {s t : State} (h : stateWf s = true) (hp : t.params = s.params) (hr : t.reg = s.reg)
    (hm : t.ram = s.ram) (hd : t.disp = s.disp) (he : t.ee = s.ee) (ha : Cells.wf Config.busSize t.acc = true) :
    stateWf t = true := by
  rw [stateWf_iff] at h ⊢
  rw [hp, hr, hm, hd, he]
  exact ⟨h.1, h.2.1, h.2.2.1, h.2.2.2.1, h.2.2.2.2.1, h.2.2.2.2.2.1, ha⟩

theorem stateWf_acc {s : State} (h : stateWf s = true) : Cells.wf Config.busSize s.acc = true :=
  ((stateWf_iff s).1 h).2.2.2.2.2.2

theorem stateWf_valid {s : State} (h : stateWf s = true) : s.params.valid = true := ((stateWf_iff s).1 h).1

/-- Setting an access flag keeps the form. -/
theorem markAccess_wf {s : State} (bits : BitVec 2) (a : Word) (h : stateWf s = true) :
    stateWf (markAccess bits s a) = true :=
  stateWf_of_eq h rfl rfl rfl rfl rfl (Cells_set_wf (by have := a.isLt; unfold Config.busSize; omega) (stateWf_acc h))

/-- A bus read keeps the form. -/
theorem busRead_wf {s : State} (a : Word) (h : stateWf s = true) : stateWf (busRead s a).2 = true := by
  have hm := markAccess_wf 1 a h
  exact stateWf_of_eq hm (by simp; rfl) (by simp; rfl) (by simp; rfl) (by simp; rfl) (by simp; rfl)
    (by rw [busRead_snd]; exact stateWf_acc hm)

theorem setRam_wf {s : State} {m : Memory} (h : stateWf s = true) (hm : Memory.wf Config.ramSize m = true) :
    stateWf (s.setRam m) = true := by
  rw [stateWf_iff] at h ⊢
  exact ⟨h.1, h.2.1, h.2.2.1, hm, h.2.2.2.2.1, h.2.2.2.2.2.1, h.2.2.2.2.2.2⟩

theorem setDisp_wf {s : State} {m : Memory} (h : stateWf s = true) (hm : Memory.wf Config.dispSize m = true) :
    stateWf (s.setDisp m) = true := by
  rw [stateWf_iff] at h ⊢
  exact ⟨h.1, h.2.1, h.2.2.1, h.2.2.2.1, hm, h.2.2.2.2.2.1, h.2.2.2.2.2.2⟩

theorem setEe_wf {s : State} {e : Eeprom} (h : stateWf s = true) (he : eepromWf s.params.eeBits e = true) :
    stateWf (s.setEe e) = true := by
  rw [stateWf_iff] at h ⊢
  exact ⟨h.1, h.2.1, h.2.2.1, h.2.2.2.1, h.2.2.2.2.1, he, h.2.2.2.2.2.2⟩

theorem storeReg_wf {s : State} (r v : Byte) (h : stateWf s = true) : stateWf (storeReg s r v) = true := by
  rw [stateWf_iff] at h ⊢
  exact ⟨h.1, h.2.1, Memory_set_wf (by have := r.isLt; unfold Config.numRegs; omega) h.2.2.1, h.2.2.2.1,
    h.2.2.2.2.1, h.2.2.2.2.2.1, h.2.2.2.2.2.2⟩

theorem eeSize_pos (width : Nat) : 0 < eeSize width := Nat.two_pow_pos width

/-- The EEPROM's `update` keeps the array canonical, the address below the capacity and the bit counter at most 8. -/
theorem eeUpdate_wf (width : Nat) (power clock data : Bool) {e : Eeprom} (h : eepromWf width e = true) :
    eepromWf width (eeUpdate width power clock data e) = true := by
  rw [eepromWf_iff] at h
  obtain ⟨ha, hd, hb, hs⟩ := h
  have hmod : ∀ n, n % eeSize width < eeSize width := fun n => Nat.mod_lt n (eeSize_pos width)
  have hsave : ∀ m ∈ e.saves ++ [e.array], Memory.wf (eeSize width) m = true := by
    intro m hm
    rcases List.mem_append.1 hm with hm | hm
    · exact hs m hm
    · rw [List.mem_singleton.1 hm]; exact ha
  -- each action of the state machine, from an EEPROM with these stores, leaves a well-formed one
  have hstop : ∀ e' : Eeprom, e'.array = e.array → e'.addr = e.addr → e'.bits = e.bits → e'.saves = e.saves →
      eepromWf width (eeStop e') = true := by
    intro e' h1 h2 h3 h4
    rw [eepromWf_iff]
    refine ⟨by rw [← h1] at ha; exact ha, by rw [← h2] at hd; exact hd, by rw [← h3] at hb; exact hb, ?_⟩
    intro m hm
    simp only [eeStop, h1, h4] at hm
    split at hm
    · exact hsave m hm
    · exact hs m hm
  have hedge : ∀ e' : Eeprom, e'.array = e.array → e'.addr = e.addr → e'.bits = e.bits → e'.saves = e.saves →
      eepromWf width (eeEdge width e.lastClk e.lastData clock data e') = true := by
    intro e' h1 h2 h3 h4
    have hbase : eepromWf width e' = true := by
      rw [eepromWf_iff, h1, h2, h3, h4]; exact ⟨ha, hd, hb, hs⟩
    unfold eeEdge
    split
    · split
      · exact hstop e' h1 h2 h3 h4
      · rw [eepromWf_iff]; exact ⟨by rw [← h1] at ha; exact ha, by rw [← h2] at hd; exact hd, Nat.zero_le 8,
          by rw [← h4] at hs; exact hs⟩
    · split
      · exact hbase
      · split
        · rw [eepromWf_iff] at hbase ⊢; exact hbase
        · split
          · unfold eeClockFall
            split
            · rw [eepromWf_iff] at hbase ⊢
              exact ⟨hbase.1, hbase.2.1, by simp only [eeShiftOut]; omega, hbase.2.2.2⟩
            · rw [eepromWf_iff] at hbase
              obtain ⟨b1, b2, b3, b4⟩ := hbase
              unfold eeDispatch
              split
              · rw [eepromWf_iff]; exact ⟨b1, b2, b3, b4⟩
              · unfold eeDispatchCommand
                split
                · split
                  · rw [eepromWf_iff]; exact ⟨b1, eeSize_pos width, Nat.zero_le 8, b4⟩
                  · rw [eepromWf_iff]; exact ⟨b1, hmod _, Nat.zero_le 8, b4⟩
                · rw [eepromWf_iff]; exact ⟨b1, b2, Nat.zero_le 8, b4⟩
              · rw [eepromWf_iff]; exact ⟨b1, hmod _, Nat.zero_le 8, b4⟩
              · rw [eepromWf_iff]; exact ⟨b1, hmod _, Nat.zero_le 8, b4⟩
              · rw [eepromWf_iff]; exact ⟨Memory_set_wf b2 b1, hmod _, Nat.zero_le 8, b4⟩
          · exact hbase
  unfold eeUpdate
  split
  · rw [eepromWf_iff]; exact ⟨ha, hd, hb, hs⟩
  · split
    · rw [eepromWf_iff]; exact ⟨ha, hd, hb, hs⟩
    · apply hedge <;> (split <;> rfl)

/-- A register write keeps the form. -/
theorem regWrite_wf {s : State} (r v : Byte) (h : stateWf s = true) : stateWf (regWrite s r v) = true := by
  unfold regWrite
  split
  · exact storeReg_wf _ _ h
  · split
    · have h1 := storeReg_wf r v h
      exact setEe_wf h1 (eeUpdate_wf _ _ _ _ ((stateWf_iff _).1 h1).2.2.2.2.2.1)
    · exact storeReg_wf _ _ h

theorem decodeAddr_ram_lt {s : State} {a : Word} {off : Nat} (h : decodeAddr s a = .ram off) :
    off < Config.ramSize := by
  unfold decodeAddr at h
  dsimp only at h
  repeat' split at h
  all_goals first | (injection h with h; subst h; exact Nat.mod_lt _ (by decide)) | cases h

theorem decodeAddr_disp_lt {s : State} {a : Word} {off : Nat} (h : decodeAddr s a = .disp off) :
    off < Config.dispSize := by
  unfold decodeAddr at h
  dsimp only at h
  repeat' split at h
  all_goals first | (injection h with h; subst h; exact Nat.mod_lt _ (by decide)) | cases h

/-- A bus write keeps the form. -/
theorem busWrite_wf {s : State} (a : Word) (v : Byte) (h : stateWf s = true) : stateWf (busWrite s a v) = true := by
  have hm := markAccess_wf 2 a h
  have hall := (stateWf_iff s).1 h
  cases hd : decodeAddr s a with
  | ram off => rw [busWrite_ram v hd]; exact setRam_wf hm (Memory_set_wf (decodeAddr_ram_lt hd) hall.2.2.2.1)
  | disp off => rw [busWrite_disp v hd]; exact setDisp_wf hm (Memory_set_wf (decodeAddr_disp_lt hd) hall.2.2.2.2.1)
  | reg r => rw [busWrite_reg v hd]; exact regWrite_wf r v hm
  | rom off => rw [busWrite_rom v hd]; exact hm
  | vectorLow => rw [busWrite_vector v (.inl hd)]; exact hm
  | vectorHigh => rw [busWrite_vector v (.inr hd)]; exact hm

/-! The CPU's own registers are no store: writing them keeps the form. -/

@[simp] theorem setA_wf (s : State) (v : Byte) : stateWf (s.setA v) = stateWf s := rfl
@[simp] theorem setX_wf (s : State) (v : Byte) : stateWf (s.setX v) = stateWf s := rfl
@[simp] theorem setY_wf (s : State) (v : Byte) : stateWf (s.setY v) = stateWf s := rfl
@[simp] theorem setSp_wf (s : State) (v : Byte) : stateWf (s.setSp v) = stateWf s := rfl
@[simp] theorem setPc_wf (s : State) (v : Word) : stateWf (s.setPc v) = stateWf s := rfl
@[simp] theorem setFlags_wf (s : State) (f : Flags) : stateWf (s.setFlags f) = stateWf s := rfl
@[simp] theorem setNZ_wf (s : State) (v : Byte) : stateWf (setNZ v s) = stateWf s := rfl
@[simp] theorem setI_wf (s : State) (b : Bool) : stateWf (setI b s) = stateWf s := rfl
@[simp] theorem setCycles_wf (s : State) (k : Int) : stateWf (s.setCycles k) = stateWf s := rfl
@[simp] theorem setHalt_wf (s : State) (h : Bool) (op : Byte) (n : Word) : stateWf (s.setHalt h op n) = stateWf s := rfl

theorem push_wf {s : State} (v : Byte) (h : stateWf s = true) : stateWf (push v s) = true := by
  unfold push
  rw [setSp_wf]
  exact busWrite_wf _ _ h

theorem pull_wf {s : State} (h : stateWf s = true) : stateWf (pull s).2 = true := by
  unfold pull
  exact busRead_wf _ (by rw [setSp_wf]; exact h)

theorem pushWord_wf {s : State} (w : Word) (h : stateWf s = true) : stateWf (pushWord w s) = true :=
  push_wf _ (push_wf _ h)

theorem pullWord_wf {s : State} (h : stateWf s = true) : stateWf (pullWord s).2 = true := pull_wf (pull_wf h)

theorem busRead16_wf {s : State} (a : Word) (h : stateWf s = true) : stateWf (busRead16 s a).2 = true :=
  busRead_wf _ (busRead_wf _ h)

theorem fetch8_wf {s : State} (h : stateWf s = true) : stateWf (fetch8 s).2 = true := by
  unfold fetch8
  rw [setPc_wf]
  exact busRead_wf _ h

/-- Exception entry keeps the form. -/
theorem enterInterrupt_wf {s : State} (status : Byte) (vector : Word) (h : stateWf s = true) :
    stateWf (enterInterrupt status vector s) = true := by
  rw [enterInterrupt_eq, setPc_wf]
  exact busRead16_wf _ (push_wf _ (pushWord_wf _ h))

theorem irq_wf {s : State} (b : Bool) (h : stateWf s = true) : stateWf (irq b s) = true := by
  unfold irq
  rw [setI_wf]
  exact enterInterrupt_wf _ _ h

theorem nmi_wf {s : State} (h : stateWf s = true) : stateWf (nmi s) = true := enterInterrupt_wf _ _ h

theorem returnFromInterrupt_wf {s : State} (h : stateWf s = true) : stateWf (returnFromInterrupt s) = true := by
  unfold returnFromInterrupt
  rw [setPc_wf]
  exact pullWord_wf (by rw [setFlags_wf]; exact pull_wf h)

/-- `reset()` keeps the form. -/
theorem cpuReset_wf {s : State} (h : stateWf s = true) : stateWf (cpuReset s) = true := by
  have h1 := busRead16_wf resetVector h
  unfold cpuReset
  generalize busRead16 s resetVector = r at h1 ⊢
  exact h1

end Sys2Proof.Machine
end

