-- ==== Sys2Proof/Laws/Operands.lean ====
section
/-! SUPPORT. Resolving a mode and reading an operand: reads and nothing else; and their canonical form. -/

namespace Sys2Proof.Machine

theorem sameButReads_zeroPagePointer (z : Byte) (s : State) : SameButReads s (zeroPagePointer z s).2 :=
  sameButReads_trans (sameButReads_busRead s _) (sameButReads_busRead _ _)

/-- A pointer in page zero, from the two RAM bytes (R111, R112). -/
theorem zeroPagePointer_fst (z : Byte) (s : State) :
    (zeroPagePointer z s).1 = wordOf (s.ram.get (z + 1).toNat) (s.ram.get z.toNat) := by
  simp [zeroPagePointer, peek]

/-- Resolving a mode makes bus reads and nothing else (R102). -/
theorem sameButReads_resolve (m : Mode) (s : State) : SameButReads s (resolve m s).2 := by
  cases m with
  | indx d => exact sameButReads_zeroPagePointer _ s
  | indy d => exact sameButReads_zeroPagePointer _ s
  | ind a => exact sameButReads_busRead16 s a
  | _ => exact sameButReads_refl s

theorem sameButReads_opRead (loc : Operand) (s : State) : SameButReads s (opRead loc s).2 := by
  cases loc with
  | mem a => exact sameButReads_busRead s a
  | acc => exact sameButReads_refl s
  | imm b => exact sameButReads_refl s

/-- Reading an operand makes bus reads and nothing else (R140, R170). -/
theorem sameButReads_readOperand (m : Mode) (s : State) : SameButReads s (readOperand m s).2 :=
  sameButReads_trans (sameButReads_resolve m s) (sameButReads_opRead _ _)

/-- A write to a location writes `A`, makes one bus write, or does nothing. -/
theorem opWrite_cases (loc : Operand) (v : Byte) (s : State) :
    (∃ a, loc = .mem a ∧ opWrite loc v s = busWrite s a v) ∨ (loc = .acc ∧ opWrite loc v s = s.setA v) ∨
    (∃ b, loc = .imm b ∧ opWrite loc v s = s) := by
  cases loc with
  | mem a => exact .inl ⟨a, rfl, rfl⟩
  | acc => exact .inr (.inl ⟨rfl, rfl⟩)
  | imm b => exact .inr (.inr ⟨b, rfl, rfl⟩)

/-- A jump writes `PC`, or nothing. -/
theorem jumpTo_cases (loc : Operand) (s : State) :
    (∃ t, loc = .mem t ∧ jumpTo loc s = s.setPc t) ∨ jumpTo loc s = s := by
  cases loc with
  | mem a => exact .inl ⟨a, rfl, rfl⟩
  | acc => exact .inr rfl
  | imm b => exact .inr rfl

theorem resolve_wf {s : State} (m : Mode) (h : stateWf s = true) : stateWf (resolve m s).2 = true := by
  cases m with
  | indx d => exact busRead_wf _ (busRead_wf _ h)
  | indy d => exact busRead_wf _ (busRead_wf _ h)
  | ind a => exact busRead16_wf a h
  | _ => exact h

theorem opRead_wf {s : State} (loc : Operand) (h : stateWf s = true) : stateWf (opRead loc s).2 = true := by
  cases loc with
  | mem a => exact busRead_wf a h
  | acc => exact h
  | imm b => exact h

theorem opWrite_wf {s : State} (loc : Operand) (v : Byte) (h : stateWf s = true) :
    stateWf (opWrite loc v s) = true := by
  cases loc with
  | mem a => exact busWrite_wf a v h
  | acc => exact h
  | imm b => exact h

theorem readOperand_wf {s : State} (m : Mode) (h : stateWf s = true) : stateWf (readOperand m s).2 = true :=
  opRead_wf _ (resolve_wf m h)

end Sys2Proof.Machine
end

