-- ==== Sys2Proof/Laws/Engine.lean ====
section
/-! SUPPORT. The step, said once: every way it answers a next state. -/

namespace Sys2Proof.Machine

/-- Running one instruction answers a next state in two ways: the fetched byte has no entry and the engine halts, or the
fetched instruction answers a next state and its cost is charged. -/
theorem runInstruction_cases {s t : State} (h : runInstruction s = .next t) :
    (∃ op s1, fetchInstr s = .undefinedOpcode op s1 ∧ t = invalidOperation op s.pc s1) ∨
    (∃ i s1 u, fetchInstr s = .instr i s1 ∧ exec i s1 = .next u ∧ t = chargeCycles i u) := by
  unfold runInstruction at h
  split at h
  · injection h with h
    exact .inl ⟨_, _, ‹_›, h.symm⟩
  · unfold afterExec at h
    split at h
    · injection h with h
      exact .inr ⟨_, _, _, ‹_›, ‹_›, h.symm⟩
    · cases h
    · cases h

/-- Everything a step that answers a next state does: it does nothing while halted, or it runs one instruction after the
IRQ gate. -/
theorem step_cases {s t : State} (h : step s = .next t) :
    s.params.valid = true ∧ ((s.halted = true ∧ t = s) ∨ (s.halted = false ∧ runInstruction (irqGate s) = .next t)) := by
  have h' : engineStep s = .next t := h
  unfold engineStep at h'
  split at h'
  · cases h'
  · rename_i hv'
    have hv : s.params.valid = true := by simpa using hv'
    refine ⟨hv, ?_⟩
    split at h'
    · injection h' with h'
      exact .inl ⟨‹_›, h'.symm⟩
    · rename_i hh
      exact .inr ⟨by simpa using hh, h'⟩

/-- A running machine with accepted parameters steps by running one instruction after the IRQ gate. -/
theorem step_running {s : State} (hv : s.params.valid = true) (hh : s.halted = false) :
    step s = runInstruction (irqGate s) := by
  show engineStep s = _
  unfold engineStep
  simp [hv, hh]

/-- A halted machine stays (R263). -/
theorem step_halted {s : State} (hv : s.params.valid = true) (hh : s.halted = true) : step s = .next s := by
  show engineStep s = _
  unfold engineStep
  simp [hv, hh]

/-- The IRQ gate makes one entry or nothing (R267). -/
theorem irqGate_cases (s : State) :
    (s.flags.i = false ∧ irqPend s ≠ 0#16 ∧ irqGate s = irq false s) ∨
    ((s.flags.i = true ∨ irqPend s = 0#16) ∧ irqGate s = s) := by
  unfold irqGate irqGateOpen
  cases hi : s.flags.i <;> by_cases hp : irqPend s = 0#16 <;> simp [hp]

/-- A fetch leaves `PC` and what reads leave. -/
theorem fetch8_snd (s : State) : (fetch8 s).2 = (busRead s s.pc).2.setPc (s.pc + 1) := rfl

@[simp] theorem fetch8_fst (s : State) : (fetch8 s).1 = peek s s.pc := rfl

@[simp] theorem fetch8_pc (s : State) : (fetch8 s).2.pc = s.pc + 1 := rfl

/-- Everything a fetch answers: no entry, or an instruction by its format. -/
theorem fetchInstr_cases (s : State) :
    (findRow (peek s s.pc) = none ∧ fetchInstr s = .undefinedOpcode (peek s s.pc) (fetch8 s).2) ∨
    (∃ row i, findRow (peek s s.pc) = some row ∧
      ((row.form = .f1 i ∧ fetchInstr s = .instr i (fetch8 s).2) ∨
       (∃ mk, row.form = .f2 mk ∧ i = mk (fetch8 (fetch8 s).2).1 ∧ fetchInstr s = .instr i (fetch8 (fetch8 s).2).2) ∨
       (∃ mk, row.form = .f3 mk ∧
          i = mk (wordOf (fetch8 (fetch8 (fetch8 s).2).2).1 (fetch8 (fetch8 s).2).1) ∧
          fetchInstr s = .instr i (fetch8 (fetch8 (fetch8 s).2).2).2))) := by
  unfold fetchInstr
  simp only [fetch8_fst s]
  cases hr : findRow (peek s s.pc) with
  | none => exact .inl ⟨rfl, rfl⟩
  | some row =>
    refine .inr ?_
    cases hf : row.form with
    | f1 i => exact ⟨row, i, rfl, .inl ⟨hf, by simp [hf]⟩⟩
    | f2 mk => exact ⟨row, _, rfl, .inr (.inl ⟨mk, hf, rfl, by simp [hf]⟩)⟩
    | f3 mk => exact ⟨row, _, rfl, .inr (.inr ⟨mk, hf, rfl, by simp [hf]⟩)⟩

end Sys2Proof.Machine
end

