-- ==== Sys2Proof/Laws/Exec.lean ====
section
/-! SUPPORT. What `exec` does, once per mnemonic that has several forms: the shared operation of its family, at the
instruction's own mode; and that every instruction answers a next state. Proofs about all forms of a mnemonic rewrite
with these and split no further. -/

namespace Sys2Proof.Machine

/-- A mode whose operand is a byte: `A`, the immediate byte, or a byte on the bus. -/
def dataMode : Mode → Bool
  | .imp | .ind _ | .rel _ => false
  | _ => true

theorem exec_lda (i : Instr) (s : State) (h : i.mnemonic = .lda) : exec i s = load State.setA i.mode s := by
  cases i <;> first | (cases h; done) | rfl

theorem exec_ldx (i : Instr) (s : State) (h : i.mnemonic = .ldx) : exec i s = load State.setX i.mode s := by
  cases i <;> first | (cases h; done) | rfl

theorem exec_ldy (i : Instr) (s : State) (h : i.mnemonic = .ldy) : exec i s = load State.setY i.mode s := by
  cases i <;> first | (cases h; done) | rfl

theorem exec_sta (i : Instr) (s : State) (h : i.mnemonic = .sta) : exec i s = store s.a i.mode s := by
  cases i <;> first | (cases h; done) | rfl

theorem exec_stx (i : Instr) (s : State) (h : i.mnemonic = .stx) : exec i s = store s.x i.mode s := by
  cases i <;> first | (cases h; done) | rfl

theorem exec_sty (i : Instr) (s : State) (h : i.mnemonic = .sty) : exec i s = store s.y i.mode s := by
  cases i <;> first | (cases h; done) | rfl

theorem exec_adc (i : Instr) (s : State) (h : i.mnemonic = .adc) : exec i s = alu addWithCarry i.mode s := by
  cases i <;> first | (cases h; done) | rfl

theorem exec_sbc (i : Instr) (s : State) (h : i.mnemonic = .sbc) : exec i s = alu subWithBorrow i.mode s := by
  cases i <;> first | (cases h; done) | rfl

theorem exec_and (i : Instr) (s : State) (h : i.mnemonic = .and) : exec i s = alu andResult i.mode s := by
  cases i <;> first | (cases h; done) | rfl

theorem exec_ora (i : Instr) (s : State) (h : i.mnemonic = .ora) : exec i s = alu orResult i.mode s := by
  cases i <;> first | (cases h; done) | rfl

theorem exec_eor (i : Instr) (s : State) (h : i.mnemonic = .eor) : exec i s = alu eorResult i.mode s := by
  cases i <;> first | (cases h; done) | rfl

theorem exec_cmp (i : Instr) (s : State) (h : i.mnemonic = .cmp) : exec i s = flagsOnly (compareFlags s.a) i.mode s := by
  cases i <;> first | (cases h; done) | rfl

theorem exec_cpx (i : Instr) (s : State) (h : i.mnemonic = .cpx) : exec i s = flagsOnly (compareFlags s.x) i.mode s := by
  cases i <;> first | (cases h; done) | rfl

theorem exec_cpy (i : Instr) (s : State) (h : i.mnemonic = .cpy) : exec i s = flagsOnly (compareFlags s.y) i.mode s := by
  cases i <;> first | (cases h; done) | rfl

theorem exec_bit (i : Instr) (s : State) (h : i.mnemonic = .bit) : exec i s = flagsOnly (bitFlags s.a) i.mode s := by
  cases i <;> first | (cases h; done) | rfl

theorem exec_asl (i : Instr) (s : State) (h : i.mnemonic = .asl) : exec i s = readModifyWrite shiftLeft i.mode s := by
  cases i <;> first | (cases h; done) | rfl

theorem exec_lsr (i : Instr) (s : State) (h : i.mnemonic = .lsr) : exec i s = readModifyWrite shiftRight i.mode s := by
  cases i <;> first | (cases h; done) | rfl

theorem exec_rol (i : Instr) (s : State) (h : i.mnemonic = .rol) : exec i s = readModifyWrite rotateLeft i.mode s := by
  cases i <;> first | (cases h; done) | rfl

theorem exec_ror (i : Instr) (s : State) (h : i.mnemonic = .ror) : exec i s = readModifyWrite rotateRight i.mode s := by
  cases i <;> first | (cases h; done) | rfl

theorem exec_inc (i : Instr) (s : State) (h : i.mnemonic = .inc) : exec i s = readModifyWrite increment i.mode s := by
  cases i <;> first | (cases h; done) | rfl

theorem exec_dec (i : Instr) (s : State) (h : i.mnemonic = .dec) : exec i s = readModifyWrite decrement i.mode s := by
  cases i <;> first | (cases h; done) | rfl

theorem exec_jmp (i : Instr) (s : State) (h : i.mnemonic = .jmp) : exec i s = jump i.mode s := by
  cases i <;> first | (cases h; done) | rfl

/-! The mnemonics of one form each: the instruction itself. -/

theorem eq_tax (i : Instr) (h : i.mnemonic = .tax) : i = .tax := by
  cases i <;> first | (cases h; done) | rfl

theorem eq_tay (i : Instr) (h : i.mnemonic = .tay) : i = .tay := by
  cases i <;> first | (cases h; done) | rfl

theorem eq_txa (i : Instr) (h : i.mnemonic = .txa) : i = .txa := by
  cases i <;> first | (cases h; done) | rfl

theorem eq_tya (i : Instr) (h : i.mnemonic = .tya) : i = .tya := by
  cases i <;> first | (cases h; done) | rfl

theorem eq_tsx (i : Instr) (h : i.mnemonic = .tsx) : i = .tsx := by
  cases i <;> first | (cases h; done) | rfl

theorem eq_txs (i : Instr) (h : i.mnemonic = .txs) : i = .txs := by
  cases i <;> first | (cases h; done) | rfl

theorem eq_pha (i : Instr) (h : i.mnemonic = .pha) : i = .pha := by
  cases i <;> first | (cases h; done) | rfl

theorem eq_php (i : Instr) (h : i.mnemonic = .php) : i = .php := by
  cases i <;> first | (cases h; done) | rfl

theorem eq_pla (i : Instr) (h : i.mnemonic = .pla) : i = .pla := by
  cases i <;> first | (cases h; done) | rfl

theorem eq_plp (i : Instr) (h : i.mnemonic = .plp) : i = .plp := by
  cases i <;> first | (cases h; done) | rfl

theorem eq_inx (i : Instr) (h : i.mnemonic = .inx) : i = .inx := by
  cases i <;> first | (cases h; done) | rfl

theorem eq_iny (i : Instr) (h : i.mnemonic = .iny) : i = .iny := by
  cases i <;> first | (cases h; done) | rfl

theorem eq_dex (i : Instr) (h : i.mnemonic = .dex) : i = .dex := by
  cases i <;> first | (cases h; done) | rfl

theorem eq_dey (i : Instr) (h : i.mnemonic = .dey) : i = .dey := by
  cases i <;> first | (cases h; done) | rfl

theorem eq_rts (i : Instr) (h : i.mnemonic = .rts) : i = .rts := by
  cases i <;> first | (cases h; done) | rfl

theorem eq_clc (i : Instr) (h : i.mnemonic = .clc) : i = .clc := by
  cases i <;> first | (cases h; done) | rfl

theorem eq_sec (i : Instr) (h : i.mnemonic = .sec) : i = .sec := by
  cases i <;> first | (cases h; done) | rfl

theorem eq_cli (i : Instr) (h : i.mnemonic = .cli) : i = .cli := by
  cases i <;> first | (cases h; done) | rfl

theorem eq_sei (i : Instr) (h : i.mnemonic = .sei) : i = .sei := by
  cases i <;> first | (cases h; done) | rfl

theorem eq_cld (i : Instr) (h : i.mnemonic = .cld) : i = .cld := by
  cases i <;> first | (cases h; done) | rfl

theorem eq_sed (i : Instr) (h : i.mnemonic = .sed) : i = .sed := by
  cases i <;> first | (cases h; done) | rfl

theorem eq_clv (i : Instr) (h : i.mnemonic = .clv) : i = .clv := by
  cases i <;> first | (cases h; done) | rfl

theorem eq_nop (i : Instr) (h : i.mnemonic = .nop) : i = .nop := by
  cases i <;> first | (cases h; done) | rfl

theorem eq_brk (i : Instr) (h : i.mnemonic = .brk) : i = .brk := by
  cases i <;> first | (cases h; done) | rfl

theorem eq_rti (i : Instr) (h : i.mnemonic = .rti) : i = .rti := by
  cases i <;> first | (cases h; done) | rfl

theorem eq_bcc (i : Instr) (h : i.mnemonic = .bcc) : ∃ d, i = .bcc d := by
  cases i <;> first | (cases h; done) | exact ⟨_, rfl⟩

theorem eq_bcs (i : Instr) (h : i.mnemonic = .bcs) : ∃ d, i = .bcs d := by
  cases i <;> first | (cases h; done) | exact ⟨_, rfl⟩

theorem eq_beq (i : Instr) (h : i.mnemonic = .beq) : ∃ d, i = .beq d := by
  cases i <;> first | (cases h; done) | exact ⟨_, rfl⟩

theorem eq_bne (i : Instr) (h : i.mnemonic = .bne) : ∃ d, i = .bne d := by
  cases i <;> first | (cases h; done) | exact ⟨_, rfl⟩

theorem eq_bmi (i : Instr) (h : i.mnemonic = .bmi) : ∃ d, i = .bmi d := by
  cases i <;> first | (cases h; done) | exact ⟨_, rfl⟩

theorem eq_bpl (i : Instr) (h : i.mnemonic = .bpl) : ∃ d, i = .bpl d := by
  cases i <;> first | (cases h; done) | exact ⟨_, rfl⟩

theorem eq_bvc (i : Instr) (h : i.mnemonic = .bvc) : ∃ d, i = .bvc d := by
  cases i <;> first | (cases h; done) | exact ⟨_, rfl⟩

theorem eq_bvs (i : Instr) (h : i.mnemonic = .bvs) : ∃ d, i = .bvs d := by
  cases i <;> first | (cases h; done) | exact ⟨_, rfl⟩

theorem eq_jsr (i : Instr) (h : i.mnemonic = .jsr) : ∃ a, i = .jsr a := by
  cases i <;> first | (cases h; done) | exact ⟨_, rfl⟩

/-- A mnemonic that reads an operand takes data modes alone. -/
theorem mode_dataMode (i : Instr) (h : i.mnemonic ∈ [Mnemonic.lda, .ldx, .ldy, .sta, .stx, .sty, .adc, .sbc, .and, .ora, .eor,
    .cmp, .cpx, .cpy, .bit, .asl, .lsr, .rol, .ror, .inc, .dec]) : dataMode i.mode = true := by
  cases i <;> first | rfl | (simp [Instr.mnemonic] at h)

theorem zeroPage_eq (d : Byte) : zeroPage d = BitVec.ofNat 16 d.toNat := by
  apply BitVec.eq_of_toNat_eq
  rw [toNat_zeroPage]
  simp
  omega

theorem absIndexed_eq (a : Word) (x : Byte) : absIndexed a x = BitVec.ofNat 16 (a.toNat + x.toNat) := by
  unfold absIndexed
  apply BitVec.eq_of_toNat_eq
  simp

theorem zeroPagePointer_eq (z : Byte) (s : State) : (zeroPagePointer z s).1 = pagePointer s z := by
  rw [zeroPagePointer_fst]
  unfold pagePointer peek
  simp

theorem zeroPagePointer_freeCtr (z : Byte) (s : State) : (zeroPagePointer z s).2.freeCtr = s.freeCtr := by
  unfold zeroPagePointer
  simp [busRead_snd]

/-- Reads that draw no free byte change no byte at all. -/
theorem peek_of_sameButReads {s t : State} (h : SameButReads s t) (hf : t.freeCtr = s.freeCtr) (a : Word) :
    peek t a = peek s a := by
  have e : t = s.setAcc t.acc := by
    have h' := h
    unfold SameButReads at h'
    rw [hf] at h'
    exact h'
  rw [e, peek_setAcc]

/-- The byte an operand read returns, by the formulas of R105 to R112. -/
theorem operandIs_readOperand (m : Mode) (s : State) (h : dataMode m = true) : OperandIs m s (readOperand m s).1 := by
  cases m with
  | imp => cases h
  | ind => cases h
  | rel => cases h
  | imm d => exact .inl rfl
  | acc => exact .inr (.inl ⟨rfl, rfl⟩)
  | zp d => exact .inr (.inr ⟨_, rfl, by rw [← zeroPage_eq]; rfl⟩)
  | zpx d => exact .inr (.inr ⟨_, rfl, by rw [← BitVec.toNat_add, ← zeroPage_eq]; rfl⟩)
  | zpy d => exact .inr (.inr ⟨_, rfl, by rw [← BitVec.toNat_add, ← zeroPage_eq]; rfl⟩)
  | abs a => exact .inr (.inr ⟨_, rfl, rfl⟩)
  | absx a => exact .inr (.inr ⟨_, rfl, by rw [← absIndexed_eq]; rfl⟩)
  | absy a => exact .inr (.inr ⟨_, rfl, by rw [← absIndexed_eq]; rfl⟩)
  | indx d =>
    refine .inr (.inr ⟨_, rfl, ?_⟩)
    simp only [readOperand, resolve, opRead, busRead_fst, zeroPagePointer_eq]
    exact peek_of_sameButReads (sameButReads_zeroPagePointer _ s) (zeroPagePointer_freeCtr _ s) _
  | indy d =>
    refine .inr (.inr ⟨_, rfl, ?_⟩)
    simp only [readOperand, resolve, opRead, busRead_fst, zeroPagePointer_eq, absIndexed_eq]
    exact peek_of_sameButReads (sameButReads_zeroPagePointer _ s) (zeroPagePointer_freeCtr _ s) _

/-- Everything a branch does (R215). -/
theorem branch_eq (cond : Bool) (d : Byte) (s : State) :
    branch cond d s = .next (if cond then s.setPc (relTarget d s.pc) else s) := rfl

/-- Everything JSR does (R213). -/
theorem execJsr_eq (a : Word) (s : State) : execJsr a s = .next ((pushWord (s.pc - 1) s).setPc a) := rfl

/-- Every instruction answers a next state. -/
theorem exec_next (i : Instr) (s : State) : ∃ t, exec i s = .next t := by
  cases i <;> exact ⟨_, rfl⟩

end Sys2Proof.Machine
end

