-- ==== Sys2Proof/Laws/PerInstr.lean ====
section
/-! SUPPORT. The family TableRow: each instruction's opcode has its row in the opcode table, with the instruction's cost and
length. -/

namespace Sys2Proof.Laws

/-- How many operand bytes a format has (R100). -/
def operandCount : Form → Nat
  | .f1 _ => 0
  | .f2 _ => 1
  | .f3 _ => 2

/-- The opcode of `i` has a row, whose cost and length are those of `i` (R101, R103, R122). -/
def TableRow.Statement (i : Instr) : Prop :=
  ∃ row, findRow i.opcode = some row ∧ row.opcode = i.opcode ∧ row.cycles = i.cycles ∧
    i.length = 1 + operandCount row.form

theorem TableRow.brk : TableRow.Statement .brk := ⟨_, rfl, rfl, rfl, rfl⟩
theorem TableRow.oraIndX (d : Byte) : TableRow.Statement (.oraIndX d) := ⟨_, rfl, rfl, rfl, rfl⟩
theorem TableRow.oraZp (d : Byte) : TableRow.Statement (.oraZp d) := ⟨_, rfl, rfl, rfl, rfl⟩
theorem TableRow.aslZp (d : Byte) : TableRow.Statement (.aslZp d) := ⟨_, rfl, rfl, rfl, rfl⟩
theorem TableRow.php : TableRow.Statement .php := ⟨_, rfl, rfl, rfl, rfl⟩
theorem TableRow.oraImm (d : Byte) : TableRow.Statement (.oraImm d) := ⟨_, rfl, rfl, rfl, rfl⟩
theorem TableRow.aslAcc : TableRow.Statement .aslAcc := ⟨_, rfl, rfl, rfl, rfl⟩
theorem TableRow.oraAbs (a : Word) : TableRow.Statement (.oraAbs a) := ⟨_, rfl, rfl, rfl, rfl⟩
theorem TableRow.aslAbs (a : Word) : TableRow.Statement (.aslAbs a) := ⟨_, rfl, rfl, rfl, rfl⟩
theorem TableRow.bpl (d : Byte) : TableRow.Statement (.bpl d) := ⟨_, rfl, rfl, rfl, rfl⟩
theorem TableRow.oraIndY (d : Byte) : TableRow.Statement (.oraIndY d) := ⟨_, rfl, rfl, rfl, rfl⟩
theorem TableRow.oraZpX (d : Byte) : TableRow.Statement (.oraZpX d) := ⟨_, rfl, rfl, rfl, rfl⟩
theorem TableRow.aslZpX (d : Byte) : TableRow.Statement (.aslZpX d) := ⟨_, rfl, rfl, rfl, rfl⟩
theorem TableRow.clc : TableRow.Statement .clc := ⟨_, rfl, rfl, rfl, rfl⟩
theorem TableRow.oraAbsY (a : Word) : TableRow.Statement (.oraAbsY a) := ⟨_, rfl, rfl, rfl, rfl⟩
theorem TableRow.oraAbsX (a : Word) : TableRow.Statement (.oraAbsX a) := ⟨_, rfl, rfl, rfl, rfl⟩
theorem TableRow.aslAbsX (a : Word) : TableRow.Statement (.aslAbsX a) := ⟨_, rfl, rfl, rfl, rfl⟩
theorem TableRow.jsr (a : Word) : TableRow.Statement (.jsr a) := ⟨_, rfl, rfl, rfl, rfl⟩
theorem TableRow.andIndX (d : Byte) : TableRow.Statement (.andIndX d) := ⟨_, rfl, rfl, rfl, rfl⟩
theorem TableRow.bitZp (d : Byte) : TableRow.Statement (.bitZp d) := ⟨_, rfl, rfl, rfl, rfl⟩
theorem TableRow.andZp (d : Byte) : TableRow.Statement (.andZp d) := ⟨_, rfl, rfl, rfl, rfl⟩
theorem TableRow.rolZp (d : Byte) : TableRow.Statement (.rolZp d) := ⟨_, rfl, rfl, rfl, rfl⟩
theorem TableRow.plp : TableRow.Statement .plp := ⟨_, rfl, rfl, rfl, rfl⟩
theorem TableRow.andImm (d : Byte) : TableRow.Statement (.andImm d) := ⟨_, rfl, rfl, rfl, rfl⟩
theorem TableRow.rolAcc : TableRow.Statement .rolAcc := ⟨_, rfl, rfl, rfl, rfl⟩
theorem TableRow.bitAbs (a : Word) : TableRow.Statement (.bitAbs a) := ⟨_, rfl, rfl, rfl, rfl⟩
theorem TableRow.andAbs (a : Word) : TableRow.Statement (.andAbs a) := ⟨_, rfl, rfl, rfl, rfl⟩
theorem TableRow.rolAbs (a : Word) : TableRow.Statement (.rolAbs a) := ⟨_, rfl, rfl, rfl, rfl⟩
theorem TableRow.bmi (d : Byte) : TableRow.Statement (.bmi d) := ⟨_, rfl, rfl, rfl, rfl⟩
theorem TableRow.andIndY (d : Byte) : TableRow.Statement (.andIndY d) := ⟨_, rfl, rfl, rfl, rfl⟩
theorem TableRow.andZpX (d : Byte) : TableRow.Statement (.andZpX d) := ⟨_, rfl, rfl, rfl, rfl⟩
theorem TableRow.rolZpX (d : Byte) : TableRow.Statement (.rolZpX d) := ⟨_, rfl, rfl, rfl, rfl⟩
theorem TableRow.sec : TableRow.Statement .sec := ⟨_, rfl, rfl, rfl, rfl⟩
theorem TableRow.andAbsY (a : Word) : TableRow.Statement (.andAbsY a) := ⟨_, rfl, rfl, rfl, rfl⟩
theorem TableRow.andAbsX (a : Word) : TableRow.Statement (.andAbsX a) := ⟨_, rfl, rfl, rfl, rfl⟩
theorem TableRow.rolAbsX (a : Word) : TableRow.Statement (.rolAbsX a) := ⟨_, rfl, rfl, rfl, rfl⟩
theorem TableRow.rti : TableRow.Statement .rti := ⟨_, rfl, rfl, rfl, rfl⟩
theorem TableRow.eorIndX (d : Byte) : TableRow.Statement (.eorIndX d) := ⟨_, rfl, rfl, rfl, rfl⟩
theorem TableRow.eorZp (d : Byte) : TableRow.Statement (.eorZp d) := ⟨_, rfl, rfl, rfl, rfl⟩
theorem TableRow.lsrZp (d : Byte) : TableRow.Statement (.lsrZp d) := ⟨_, rfl, rfl, rfl, rfl⟩
theorem TableRow.pha : TableRow.Statement .pha := ⟨_, rfl, rfl, rfl, rfl⟩
theorem TableRow.eorImm (d : Byte) : TableRow.Statement (.eorImm d) := ⟨_, rfl, rfl, rfl, rfl⟩
theorem TableRow.lsrAcc : TableRow.Statement .lsrAcc := ⟨_, rfl, rfl, rfl, rfl⟩
theorem TableRow.jmpAbs (a : Word) : TableRow.Statement (.jmpAbs a) := ⟨_, rfl, rfl, rfl, rfl⟩
theorem TableRow.eorAbs (a : Word) : TableRow.Statement (.eorAbs a) := ⟨_, rfl, rfl, rfl, rfl⟩
theorem TableRow.lsrAbs (a : Word) : TableRow.Statement (.lsrAbs a) := ⟨_, rfl, rfl, rfl, rfl⟩
theorem TableRow.bvc (d : Byte) : TableRow.Statement (.bvc d) := ⟨_, rfl, rfl, rfl, rfl⟩
theorem TableRow.eorIndY (d : Byte) : TableRow.Statement (.eorIndY d) := ⟨_, rfl, rfl, rfl, rfl⟩
theorem TableRow.eorZpX (d : Byte) : TableRow.Statement (.eorZpX d) := ⟨_, rfl, rfl, rfl, rfl⟩
theorem TableRow.lsrZpX (d : Byte) : TableRow.Statement (.lsrZpX d) := ⟨_, rfl, rfl, rfl, rfl⟩
theorem TableRow.cli : TableRow.Statement .cli := ⟨_, rfl, rfl, rfl, rfl⟩
theorem TableRow.eorAbsY (a : Word) : TableRow.Statement (.eorAbsY a) := ⟨_, rfl, rfl, rfl, rfl⟩
theorem TableRow.eorAbsX (a : Word) : TableRow.Statement (.eorAbsX a) := ⟨_, rfl, rfl, rfl, rfl⟩
theorem TableRow.lsrAbsX (a : Word) : TableRow.Statement (.lsrAbsX a) := ⟨_, rfl, rfl, rfl, rfl⟩
theorem TableRow.rts : TableRow.Statement .rts := ⟨_, rfl, rfl, rfl, rfl⟩
theorem TableRow.adcIndX (d : Byte) : TableRow.Statement (.adcIndX d) := ⟨_, rfl, rfl, rfl, rfl⟩
theorem TableRow.adcZp (d : Byte) : TableRow.Statement (.adcZp d) := ⟨_, rfl, rfl, rfl, rfl⟩
theorem TableRow.rorZp (d : Byte) : TableRow.Statement (.rorZp d) := ⟨_, rfl, rfl, rfl, rfl⟩
theorem TableRow.pla : TableRow.Statement .pla := ⟨_, rfl, rfl, rfl, rfl⟩
theorem TableRow.adcImm (d : Byte) : TableRow.Statement (.adcImm d) := ⟨_, rfl, rfl, rfl, rfl⟩
theorem TableRow.rorAcc : TableRow.Statement .rorAcc := ⟨_, rfl, rfl, rfl, rfl⟩
theorem TableRow.jmpInd (a : Word) : TableRow.Statement (.jmpInd a) := ⟨_, rfl, rfl, rfl, rfl⟩
theorem TableRow.adcAbs (a : Word) : TableRow.Statement (.adcAbs a) := ⟨_, rfl, rfl, rfl, rfl⟩
theorem TableRow.rorAbs (a : Word) : TableRow.Statement (.rorAbs a) := ⟨_, rfl, rfl, rfl, rfl⟩
theorem TableRow.bvs (d : Byte) : TableRow.Statement (.bvs d) := ⟨_, rfl, rfl, rfl, rfl⟩
theorem TableRow.adcIndY (d : Byte) : TableRow.Statement (.adcIndY d) := ⟨_, rfl, rfl, rfl, rfl⟩
theorem TableRow.adcZpX (d : Byte) : TableRow.Statement (.adcZpX d) := ⟨_, rfl, rfl, rfl, rfl⟩
theorem TableRow.rorZpX (d : Byte) : TableRow.Statement (.rorZpX d) := ⟨_, rfl, rfl, rfl, rfl⟩
theorem TableRow.sei : TableRow.Statement .sei := ⟨_, rfl, rfl, rfl, rfl⟩
theorem TableRow.adcAbsY (a : Word) : TableRow.Statement (.adcAbsY a) := ⟨_, rfl, rfl, rfl, rfl⟩
theorem TableRow.adcAbsX (a : Word) : TableRow.Statement (.adcAbsX a) := ⟨_, rfl, rfl, rfl, rfl⟩
theorem TableRow.rorAbsX (a : Word) : TableRow.Statement (.rorAbsX a) := ⟨_, rfl, rfl, rfl, rfl⟩
theorem TableRow.staIndX (d : Byte) : TableRow.Statement (.staIndX d) := ⟨_, rfl, rfl, rfl, rfl⟩
theorem TableRow.styZp (d : Byte) : TableRow.Statement (.styZp d) := ⟨_, rfl, rfl, rfl, rfl⟩
theorem TableRow.staZp (d : Byte) : TableRow.Statement (.staZp d) := ⟨_, rfl, rfl, rfl, rfl⟩
theorem TableRow.stxZp (d : Byte) : TableRow.Statement (.stxZp d) := ⟨_, rfl, rfl, rfl, rfl⟩
theorem TableRow.dey : TableRow.Statement .dey := ⟨_, rfl, rfl, rfl, rfl⟩
theorem TableRow.txa : TableRow.Statement .txa := ⟨_, rfl, rfl, rfl, rfl⟩
theorem TableRow.styAbs (a : Word) : TableRow.Statement (.styAbs a) := ⟨_, rfl, rfl, rfl, rfl⟩
theorem TableRow.staAbs (a : Word) : TableRow.Statement (.staAbs a) := ⟨_, rfl, rfl, rfl, rfl⟩
theorem TableRow.stxAbs (a : Word) : TableRow.Statement (.stxAbs a) := ⟨_, rfl, rfl, rfl, rfl⟩
theorem TableRow.bcc (d : Byte) : TableRow.Statement (.bcc d) := ⟨_, rfl, rfl, rfl, rfl⟩
theorem TableRow.staIndY (d : Byte) : TableRow.Statement (.staIndY d) := ⟨_, rfl, rfl, rfl, rfl⟩
theorem TableRow.styZpX (d : Byte) : TableRow.Statement (.styZpX d) := ⟨_, rfl, rfl, rfl, rfl⟩
theorem TableRow.staZpX (d : Byte) : TableRow.Statement (.staZpX d) := ⟨_, rfl, rfl, rfl, rfl⟩
theorem TableRow.stxZpY (d : Byte) : TableRow.Statement (.stxZpY d) := ⟨_, rfl, rfl, rfl, rfl⟩
theorem TableRow.tya : TableRow.Statement .tya := ⟨_, rfl, rfl, rfl, rfl⟩
theorem TableRow.staAbsY (a : Word) : TableRow.Statement (.staAbsY a) := ⟨_, rfl, rfl, rfl, rfl⟩
theorem TableRow.txs : TableRow.Statement .txs := ⟨_, rfl, rfl, rfl, rfl⟩
theorem TableRow.staAbsX (a : Word) : TableRow.Statement (.staAbsX a) := ⟨_, rfl, rfl, rfl, rfl⟩
theorem TableRow.ldyImm (d : Byte) : TableRow.Statement (.ldyImm d) := ⟨_, rfl, rfl, rfl, rfl⟩
theorem TableRow.ldaIndX (d : Byte) : TableRow.Statement (.ldaIndX d) := ⟨_, rfl, rfl, rfl, rfl⟩
theorem TableRow.ldxImm (d : Byte) : TableRow.Statement (.ldxImm d) := ⟨_, rfl, rfl, rfl, rfl⟩
theorem TableRow.ldyZp (d : Byte) : TableRow.Statement (.ldyZp d) := ⟨_, rfl, rfl, rfl, rfl⟩
theorem TableRow.ldaZp (d : Byte) : TableRow.Statement (.ldaZp d) := ⟨_, rfl, rfl, rfl, rfl⟩
theorem TableRow.ldxZp (d : Byte) : TableRow.Statement (.ldxZp d) := ⟨_, rfl, rfl, rfl, rfl⟩
theorem TableRow.tay : TableRow.Statement .tay := ⟨_, rfl, rfl, rfl, rfl⟩
theorem TableRow.ldaImm (d : Byte) : TableRow.Statement (.ldaImm d) := ⟨_, rfl, rfl, rfl, rfl⟩
theorem TableRow.tax : TableRow.Statement .tax := ⟨_, rfl, rfl, rfl, rfl⟩
theorem TableRow.ldyAbs (a : Word) : TableRow.Statement (.ldyAbs a) := ⟨_, rfl, rfl, rfl, rfl⟩
theorem TableRow.ldaAbs (a : Word) : TableRow.Statement (.ldaAbs a) := ⟨_, rfl, rfl, rfl, rfl⟩
theorem TableRow.ldxAbs (a : Word) : TableRow.Statement (.ldxAbs a) := ⟨_, rfl, rfl, rfl, rfl⟩
theorem TableRow.bcs (d : Byte) : TableRow.Statement (.bcs d) := ⟨_, rfl, rfl, rfl, rfl⟩
theorem TableRow.ldaIndY (d : Byte) : TableRow.Statement (.ldaIndY d) := ⟨_, rfl, rfl, rfl, rfl⟩
theorem TableRow.ldyZpX (d : Byte) : TableRow.Statement (.ldyZpX d) := ⟨_, rfl, rfl, rfl, rfl⟩
theorem TableRow.ldaZpX (d : Byte) : TableRow.Statement (.ldaZpX d) := ⟨_, rfl, rfl, rfl, rfl⟩
theorem TableRow.ldxZpY (d : Byte) : TableRow.Statement (.ldxZpY d) := ⟨_, rfl, rfl, rfl, rfl⟩
theorem TableRow.clv : TableRow.Statement .clv := ⟨_, rfl, rfl, rfl, rfl⟩
theorem TableRow.ldaAbsY (a : Word) : TableRow.Statement (.ldaAbsY a) := ⟨_, rfl, rfl, rfl, rfl⟩
theorem TableRow.tsx : TableRow.Statement .tsx := ⟨_, rfl, rfl, rfl, rfl⟩
theorem TableRow.ldyAbsX (a : Word) : TableRow.Statement (.ldyAbsX a) := ⟨_, rfl, rfl, rfl, rfl⟩
theorem TableRow.ldaAbsX (a : Word) : TableRow.Statement (.ldaAbsX a) := ⟨_, rfl, rfl, rfl, rfl⟩
theorem TableRow.ldxAbsY (a : Word) : TableRow.Statement (.ldxAbsY a) := ⟨_, rfl, rfl, rfl, rfl⟩
theorem TableRow.cpyImm (d : Byte) : TableRow.Statement (.cpyImm d) := ⟨_, rfl, rfl, rfl, rfl⟩
theorem TableRow.cmpIndX (d : Byte) : TableRow.Statement (.cmpIndX d) := ⟨_, rfl, rfl, rfl, rfl⟩
theorem TableRow.cpyZp (d : Byte) : TableRow.Statement (.cpyZp d) := ⟨_, rfl, rfl, rfl, rfl⟩
theorem TableRow.cmpZp (d : Byte) : TableRow.Statement (.cmpZp d) := ⟨_, rfl, rfl, rfl, rfl⟩
theorem TableRow.decZp (d : Byte) : TableRow.Statement (.decZp d) := ⟨_, rfl, rfl, rfl, rfl⟩
theorem TableRow.iny : TableRow.Statement .iny := ⟨_, rfl, rfl, rfl, rfl⟩
theorem TableRow.cmpImm (d : Byte) : TableRow.Statement (.cmpImm d) := ⟨_, rfl, rfl, rfl, rfl⟩
theorem TableRow.dex : TableRow.Statement .dex := ⟨_, rfl, rfl, rfl, rfl⟩
theorem TableRow.cpyAbs (a : Word) : TableRow.Statement (.cpyAbs a) := ⟨_, rfl, rfl, rfl, rfl⟩
theorem TableRow.cmpAbs (a : Word) : TableRow.Statement (.cmpAbs a) := ⟨_, rfl, rfl, rfl, rfl⟩
theorem TableRow.decAbs (a : Word) : TableRow.Statement (.decAbs a) := ⟨_, rfl, rfl, rfl, rfl⟩
theorem TableRow.bne (d : Byte) : TableRow.Statement (.bne d) := ⟨_, rfl, rfl, rfl, rfl⟩
theorem TableRow.cmpIndY (d : Byte) : TableRow.Statement (.cmpIndY d) := ⟨_, rfl, rfl, rfl, rfl⟩
theorem TableRow.cmpZpX (d : Byte) : TableRow.Statement (.cmpZpX d) := ⟨_, rfl, rfl, rfl, rfl⟩
theorem TableRow.decZpX (d : Byte) : TableRow.Statement (.decZpX d) := ⟨_, rfl, rfl, rfl, rfl⟩
theorem TableRow.cld : TableRow.Statement .cld := ⟨_, rfl, rfl, rfl, rfl⟩
theorem TableRow.cmpAbsY (a : Word) : TableRow.Statement (.cmpAbsY a) := ⟨_, rfl, rfl, rfl, rfl⟩
theorem TableRow.cmpAbsX (a : Word) : TableRow.Statement (.cmpAbsX a) := ⟨_, rfl, rfl, rfl, rfl⟩
theorem TableRow.decAbsX (a : Word) : TableRow.Statement (.decAbsX a) := ⟨_, rfl, rfl, rfl, rfl⟩
theorem TableRow.cpxImm (d : Byte) : TableRow.Statement (.cpxImm d) := ⟨_, rfl, rfl, rfl, rfl⟩
theorem TableRow.sbcIndX (d : Byte) : TableRow.Statement (.sbcIndX d) := ⟨_, rfl, rfl, rfl, rfl⟩
theorem TableRow.cpxZp (d : Byte) : TableRow.Statement (.cpxZp d) := ⟨_, rfl, rfl, rfl, rfl⟩
theorem TableRow.sbcZp (d : Byte) : TableRow.Statement (.sbcZp d) := ⟨_, rfl, rfl, rfl, rfl⟩
theorem TableRow.incZp (d : Byte) : TableRow.Statement (.incZp d) := ⟨_, rfl, rfl, rfl, rfl⟩
theorem TableRow.inx : TableRow.Statement .inx := ⟨_, rfl, rfl, rfl, rfl⟩
theorem TableRow.sbcImm (d : Byte) : TableRow.Statement (.sbcImm d) := ⟨_, rfl, rfl, rfl, rfl⟩
theorem TableRow.nop : TableRow.Statement .nop := ⟨_, rfl, rfl, rfl, rfl⟩
theorem TableRow.cpxAbs (a : Word) : TableRow.Statement (.cpxAbs a) := ⟨_, rfl, rfl, rfl, rfl⟩
theorem TableRow.sbcAbs (a : Word) : TableRow.Statement (.sbcAbs a) := ⟨_, rfl, rfl, rfl, rfl⟩
theorem TableRow.incAbs (a : Word) : TableRow.Statement (.incAbs a) := ⟨_, rfl, rfl, rfl, rfl⟩
theorem TableRow.beq (d : Byte) : TableRow.Statement (.beq d) := ⟨_, rfl, rfl, rfl, rfl⟩
theorem TableRow.sbcIndY (d : Byte) : TableRow.Statement (.sbcIndY d) := ⟨_, rfl, rfl, rfl, rfl⟩
theorem TableRow.sbcZpX (d : Byte) : TableRow.Statement (.sbcZpX d) := ⟨_, rfl, rfl, rfl, rfl⟩
theorem TableRow.incZpX (d : Byte) : TableRow.Statement (.incZpX d) := ⟨_, rfl, rfl, rfl, rfl⟩
theorem TableRow.sed : TableRow.Statement .sed := ⟨_, rfl, rfl, rfl, rfl⟩
theorem TableRow.sbcAbsY (a : Word) : TableRow.Statement (.sbcAbsY a) := ⟨_, rfl, rfl, rfl, rfl⟩
theorem TableRow.sbcAbsX (a : Word) : TableRow.Statement (.sbcAbsX a) := ⟨_, rfl, rfl, rfl, rfl⟩
theorem TableRow.incAbsX (a : Word) : TableRow.Statement (.incAbsX a) := ⟨_, rfl, rfl, rfl, rfl⟩

end Sys2Proof.Laws
end

