-- ==== Sys2Proof/Tests/Slice0.lean ====
section
/-! SUPPORT. The model's own tests. Expected results come from the spec: the decode words from the encodings of
30_encoding.md and the family files, the costs from the matrix of R116, the step tests from the vectors T1 to T116 of
95_test_vectors.md. Then, for each obligation with hypotheses, a state and operands that meet them. -/

namespace Sys2Proof.Tests

open Sys2Proof Sys2Proof.Machine

/-! Decoding: every row of the opcode table, its word written out, operand bytes 0x12 and 0x34; and its cost. -/

/-- What the decoder gives for some bytes, with the instruction's cost. -/
def decodeWithCost (bs : List Byte) : DecodeResult × Nat :=
  (decode bs, match decode bs with
    | .ok i _ => i.cycles
    | .undefinedOpcode _ => 0
    | .truncated => 0)

theorem test_decode_0 :
    [[0x00], [0x01, 0x12], [0x05, 0x12], [0x06, 0x12], [0x08], [0x09, 0x12], [0x0A], [0x0D, 0x12, 0x34],
     [0x0E, 0x12, 0x34]].map decodeWithCost =
    [(.ok .brk [], 7), (.ok (.oraIndX 0x12) [], 6), (.ok (.oraZp 0x12) [], 3), (.ok (.aslZp 0x12) [], 5),
     (.ok .php [], 3), (.ok (.oraImm 0x12) [], 2), (.ok .aslAcc [], 2), (.ok (.oraAbs 0x3412) [], 4),
     (.ok (.aslAbs 0x3412) [], 6)] := by
  decide

theorem test_decode_1 :
    [[0x10, 0x12], [0x11, 0x12], [0x15, 0x12], [0x16, 0x12], [0x18], [0x19, 0x12, 0x34], [0x1D, 0x12, 0x34],
     [0x1E, 0x12, 0x34]].map decodeWithCost =
    [(.ok (.bpl 0x12) [], 2), (.ok (.oraIndY 0x12) [], 5), (.ok (.oraZpX 0x12) [], 4),
     (.ok (.aslZpX 0x12) [], 6), (.ok .clc [], 2), (.ok (.oraAbsY 0x3412) [], 4), (.ok (.oraAbsX 0x3412) [], 4),
     (.ok (.aslAbsX 0x3412) [], 7)] := by
  decide

theorem test_decode_2 :
    [[0x20, 0x12, 0x34], [0x21, 0x12], [0x24, 0x12], [0x25, 0x12], [0x26, 0x12], [0x28], [0x29, 0x12], [0x2A],
     [0x2C, 0x12, 0x34], [0x2D, 0x12, 0x34], [0x2E, 0x12, 0x34]].map decodeWithCost =
    [(.ok (.jsr 0x3412) [], 6), (.ok (.andIndX 0x12) [], 6), (.ok (.bitZp 0x12) [], 3),
     (.ok (.andZp 0x12) [], 3), (.ok (.rolZp 0x12) [], 5), (.ok .plp [], 4), (.ok (.andImm 0x12) [], 2),
     (.ok .rolAcc [], 2), (.ok (.bitAbs 0x3412) [], 4), (.ok (.andAbs 0x3412) [], 4),
     (.ok (.rolAbs 0x3412) [], 6)] := by
  decide

theorem test_decode_3 :
    [[0x30, 0x12], [0x31, 0x12], [0x35, 0x12], [0x36, 0x12], [0x38], [0x39, 0x12, 0x34], [0x3D, 0x12, 0x34],
     [0x3E, 0x12, 0x34]].map decodeWithCost =
    [(.ok (.bmi 0x12) [], 2), (.ok (.andIndY 0x12) [], 5), (.ok (.andZpX 0x12) [], 4),
     (.ok (.rolZpX 0x12) [], 6), (.ok .sec [], 2), (.ok (.andAbsY 0x3412) [], 4), (.ok (.andAbsX 0x3412) [], 4),
     (.ok (.rolAbsX 0x3412) [], 7)] := by
  decide

theorem test_decode_4 :
    [[0x40], [0x41, 0x12], [0x45, 0x12], [0x46, 0x12], [0x48], [0x49, 0x12], [0x4A], [0x4C, 0x12, 0x34],
     [0x4D, 0x12, 0x34], [0x4E, 0x12, 0x34]].map decodeWithCost =
    [(.ok .rti [], 6), (.ok (.eorIndX 0x12) [], 6), (.ok (.eorZp 0x12) [], 3), (.ok (.lsrZp 0x12) [], 5),
     (.ok .pha [], 3), (.ok (.eorImm 0x12) [], 2), (.ok .lsrAcc [], 2), (.ok (.jmpAbs 0x3412) [], 3),
     (.ok (.eorAbs 0x3412) [], 4), (.ok (.lsrAbs 0x3412) [], 6)] := by
  decide

theorem test_decode_5 :
    [[0x50, 0x12], [0x51, 0x12], [0x55, 0x12], [0x56, 0x12], [0x58], [0x59, 0x12, 0x34], [0x5D, 0x12, 0x34],
     [0x5E, 0x12, 0x34]].map decodeWithCost =
    [(.ok (.bvc 0x12) [], 2), (.ok (.eorIndY 0x12) [], 5), (.ok (.eorZpX 0x12) [], 4),
     (.ok (.lsrZpX 0x12) [], 6), (.ok .cli [], 2), (.ok (.eorAbsY 0x3412) [], 4), (.ok (.eorAbsX 0x3412) [], 4),
     (.ok (.lsrAbsX 0x3412) [], 7)] := by
  decide

theorem test_decode_6 :
    [[0x60], [0x61, 0x12], [0x65, 0x12], [0x66, 0x12], [0x68], [0x69, 0x12], [0x6A], [0x6C, 0x12, 0x34],
     [0x6D, 0x12, 0x34], [0x6E, 0x12, 0x34]].map decodeWithCost =
    [(.ok .rts [], 6), (.ok (.adcIndX 0x12) [], 6), (.ok (.adcZp 0x12) [], 3), (.ok (.rorZp 0x12) [], 5),
     (.ok .pla [], 4), (.ok (.adcImm 0x12) [], 2), (.ok .rorAcc [], 2), (.ok (.jmpInd 0x3412) [], 5),
     (.ok (.adcAbs 0x3412) [], 4), (.ok (.rorAbs 0x3412) [], 6)] := by
  decide

theorem test_decode_7 :
    [[0x70, 0x12], [0x71, 0x12], [0x75, 0x12], [0x76, 0x12], [0x78], [0x79, 0x12, 0x34], [0x7D, 0x12, 0x34],
     [0x7E, 0x12, 0x34]].map decodeWithCost =
    [(.ok (.bvs 0x12) [], 2), (.ok (.adcIndY 0x12) [], 5), (.ok (.adcZpX 0x12) [], 4),
     (.ok (.rorZpX 0x12) [], 6), (.ok .sei [], 2), (.ok (.adcAbsY 0x3412) [], 4), (.ok (.adcAbsX 0x3412) [], 4),
     (.ok (.rorAbsX 0x3412) [], 7)] := by
  decide

theorem test_decode_8 :
    [[0x81, 0x12], [0x84, 0x12], [0x85, 0x12], [0x86, 0x12], [0x88], [0x8A], [0x8C, 0x12, 0x34],
     [0x8D, 0x12, 0x34], [0x8E, 0x12, 0x34]].map decodeWithCost =
    [(.ok (.staIndX 0x12) [], 6), (.ok (.styZp 0x12) [], 3), (.ok (.staZp 0x12) [], 3),
     (.ok (.stxZp 0x12) [], 3), (.ok .dey [], 2), (.ok .txa [], 2), (.ok (.styAbs 0x3412) [], 4),
     (.ok (.staAbs 0x3412) [], 4), (.ok (.stxAbs 0x3412) [], 4)] := by
  decide

theorem test_decode_9 :
    [[0x90, 0x12], [0x91, 0x12], [0x94, 0x12], [0x95, 0x12], [0x96, 0x12], [0x98], [0x99, 0x12, 0x34], [0x9A],
     [0x9D, 0x12, 0x34]].map decodeWithCost =
    [(.ok (.bcc 0x12) [], 2), (.ok (.staIndY 0x12) [], 6), (.ok (.styZpX 0x12) [], 4),
     (.ok (.staZpX 0x12) [], 4), (.ok (.stxZpY 0x12) [], 4), (.ok .tya [], 2), (.ok (.staAbsY 0x3412) [], 5),
     (.ok .txs [], 2), (.ok (.staAbsX 0x3412) [], 5)] := by
  decide

theorem test_decode_A :
    [[0xA0, 0x12], [0xA1, 0x12], [0xA2, 0x12], [0xA4, 0x12], [0xA5, 0x12], [0xA6, 0x12], [0xA8], [0xA9, 0x12],
     [0xAA], [0xAC, 0x12, 0x34], [0xAD, 0x12, 0x34], [0xAE, 0x12, 0x34]].map decodeWithCost =
    [(.ok (.ldyImm 0x12) [], 2), (.ok (.ldaIndX 0x12) [], 6), (.ok (.ldxImm 0x12) [], 2),
     (.ok (.ldyZp 0x12) [], 3), (.ok (.ldaZp 0x12) [], 3), (.ok (.ldxZp 0x12) [], 3), (.ok .tay [], 2),
     (.ok (.ldaImm 0x12) [], 2), (.ok .tax [], 2), (.ok (.ldyAbs 0x3412) [], 4), (.ok (.ldaAbs 0x3412) [], 4),
     (.ok (.ldxAbs 0x3412) [], 4)] := by
  decide

theorem test_decode_B :
    [[0xB0, 0x12], [0xB1, 0x12], [0xB4, 0x12], [0xB5, 0x12], [0xB6, 0x12], [0xB8], [0xB9, 0x12, 0x34], [0xBA],
     [0xBC, 0x12, 0x34], [0xBD, 0x12, 0x34], [0xBE, 0x12, 0x34]].map decodeWithCost =
    [(.ok (.bcs 0x12) [], 2), (.ok (.ldaIndY 0x12) [], 5), (.ok (.ldyZpX 0x12) [], 4),
     (.ok (.ldaZpX 0x12) [], 4), (.ok (.ldxZpY 0x12) [], 4), (.ok .clv [], 2), (.ok (.ldaAbsY 0x3412) [], 4),
     (.ok .tsx [], 2), (.ok (.ldyAbsX 0x3412) [], 4), (.ok (.ldaAbsX 0x3412) [], 4),
     (.ok (.ldxAbsY 0x3412) [], 4)] := by
  decide

theorem test_decode_C :
    [[0xC0, 0x12], [0xC1, 0x12], [0xC4, 0x12], [0xC5, 0x12], [0xC6, 0x12], [0xC8], [0xC9, 0x12], [0xCA],
     [0xCC, 0x12, 0x34], [0xCD, 0x12, 0x34], [0xCE, 0x12, 0x34]].map decodeWithCost =
    [(.ok (.cpyImm 0x12) [], 2), (.ok (.cmpIndX 0x12) [], 6), (.ok (.cpyZp 0x12) [], 3),
     (.ok (.cmpZp 0x12) [], 3), (.ok (.decZp 0x12) [], 5), (.ok .iny [], 2), (.ok (.cmpImm 0x12) [], 2),
     (.ok .dex [], 2), (.ok (.cpyAbs 0x3412) [], 4), (.ok (.cmpAbs 0x3412) [], 4), (.ok (.decAbs 0x3412) [], 6)] := by
  decide

theorem test_decode_D :
    [[0xD0, 0x12], [0xD1, 0x12], [0xD5, 0x12], [0xD6, 0x12], [0xD8], [0xD9, 0x12, 0x34], [0xDD, 0x12, 0x34],
     [0xDE, 0x12, 0x34]].map decodeWithCost =
    [(.ok (.bne 0x12) [], 2), (.ok (.cmpIndY 0x12) [], 5), (.ok (.cmpZpX 0x12) [], 4),
     (.ok (.decZpX 0x12) [], 6), (.ok .cld [], 2), (.ok (.cmpAbsY 0x3412) [], 4), (.ok (.cmpAbsX 0x3412) [], 4),
     (.ok (.decAbsX 0x3412) [], 7)] := by
  decide

theorem test_decode_E :
    [[0xE0, 0x12], [0xE1, 0x12], [0xE4, 0x12], [0xE5, 0x12], [0xE6, 0x12], [0xE8], [0xE9, 0x12], [0xEA],
     [0xEC, 0x12, 0x34], [0xED, 0x12, 0x34], [0xEE, 0x12, 0x34]].map decodeWithCost =
    [(.ok (.cpxImm 0x12) [], 2), (.ok (.sbcIndX 0x12) [], 6), (.ok (.cpxZp 0x12) [], 3),
     (.ok (.sbcZp 0x12) [], 3), (.ok (.incZp 0x12) [], 5), (.ok .inx [], 2), (.ok (.sbcImm 0x12) [], 2),
     (.ok .nop [], 2), (.ok (.cpxAbs 0x3412) [], 4), (.ok (.sbcAbs 0x3412) [], 4), (.ok (.incAbs 0x3412) [], 6)] := by
  decide

theorem test_decode_F :
    [[0xF0, 0x12], [0xF1, 0x12], [0xF5, 0x12], [0xF6, 0x12], [0xF8], [0xF9, 0x12, 0x34], [0xFD, 0x12, 0x34],
     [0xFE, 0x12, 0x34]].map decodeWithCost =
    [(.ok (.beq 0x12) [], 2), (.ok (.sbcIndY 0x12) [], 5), (.ok (.sbcZpX 0x12) [], 4),
     (.ok (.incZpX 0x12) [], 6), (.ok .sed [], 2), (.ok (.sbcAbsY 0x3412) [], 4), (.ok (.sbcAbsX 0x3412) [], 4),
     (.ok (.incAbsX 0x3412) [], 7)] := by
  decide

/-- R117: an undefined byte, and R100: too few bytes. -/
theorem test_decode_rejects : decode [0x02] = .undefinedOpcode 0x02 ∧ decode [0xFF, 1, 2] = .undefinedOpcode 0xFF ∧
    decode [0xA9] = .truncated ∧ decode [0x4C, 0x00] = .truncated ∧ decode [] = .truncated := by decide
theorem test_decodeTableWord : decodeTableWord 8 0xEA = some .nop ∧ decodeTableWord 16 0x80A9 = some (.ldaImm 0x80) ∧
    decodeTableWord 24 0xE1004C = some (.jmpAbs 0xE100) ∧ decodeTableWord 8 0x02 = none ∧
    decodeTableWord 8 0xA9 = some (.ldaImm 0x00) := by decide

/-! WellFormed: each check refuses an ill-formed term; and so does the step. -/

theorem test_refuses_equal_registers : (Params.registersDistinct { Params.reference with regBank := 0x70 }) = false ∧
    (Params.valid { Params.reference with regBank := 0x70 }) = false := by decide
theorem test_refuses_equal_port_bits : (Params.portBitsDistinct { Params.reference with pbDataBit := 1 }) = false ∧
    (Params.valid { Params.reference with pbDataBit := 1 }) = false := by decide
theorem test_refuses_no_address_bits : (Params.eeBitsPositive { Params.reference with eeBits := 0 }) = false ∧
    (Params.valid { Params.reference with eeBits := 0 }) = false := by decide
theorem test_refuses_short_image : (Params.imageLongEnough { Params.reference with imageLen := 0x3FFF }) = false ∧
    (Params.valid { Params.reference with imageLen := 0x3FFF }) = false := by decide
theorem test_accepts_reference : Params.reference.valid = true ∧
    (Params.valid { Params.reference with imageLen := 0x4000 }) = true := by decide
theorem test_step_refuses : step { State.reset with params := { Params.reference with eeBits := 0 } } =
    .refused .launchParameters := rfl

/-! The step. -/

/-- Image cells from an offset on. -/
def cellsFrom : Nat → List Byte → List Host.Cell
  | _, [] => []
  | n, v :: vs => if v = 0 then cellsFrom (n + 1) vs else (n, v) :: cellsFrom (n + 1) vs

/-- The state after reset with code at 0xE000 and `PC` there. -/
def machine (code : List Byte) : State :=
  { State.reset with
    pc := 0xE000
    acc := []
    params := { Params.reference with image := cellsFrom 0x2000 code, vectorIdle := 0xE200 } }

/-- The same with a listed memory of RAM bytes. -/
def machineRam (code : List Byte) (ram : Memory) : State := { machine code with ram := ram }

/-- The step answers a next state with the property. -/
def stepsTo (s : State) (p : State → Bool) : Bool :=
  match step s with
  | .next t => p t
  | .fault _ => false
  | .refused _ => false

/-- A run of events answers a next state with the property. -/
def runsTo (es : List Event) (s : State) (p : State → Bool) : Bool :=
  match runEvents es s with
  | .next t => p t
  | .fault _ => false
  | .refused _ => false

/-- The flags of a string of truth values in the order N V D I Z C. -/
def fl (n v d i z c : Bool) : Flags := ⟨c, z, i, d, v, n⟩

/-- T10 -/
theorem test_lda_zpx : stepsTo ({ machineRam [0xB5, 0xF0] [(0x10, 0x99)] with x := 0x20 })
    (fun t => t.a == 0x99 && t.flags.n && t.cycles == -4) = true := by decide

/-- T11: the pointer wraps in page 0 -/
theorem test_lda_indx : stepsTo (machineRam [0xA1, 0xFF] [(0x0, 0x02), (0xFF, 0x34), (0x234, 0x77)])
    (fun t => t.a == 0x77 && t.cycles == -6) = true := by decide

/-- T13: a page crossing costs nothing -/
theorem test_lda_indy : stepsTo ({ machineRam [0xB1, 0xFF] [(0x0, 0x02), (0xFF, 0xFF), (0x300, 0x66)] with y := 0x01 })
    (fun t => t.a == 0x66 && t.cycles == -5) = true := by decide

/-- T14: 0xFFFF + 1 wraps to 0x0000 -/
theorem test_lda_indy_wraps : stepsTo ({ machineRam [0xB1, 0x10] [(0x0, 0x21), (0x10, 0xFF), (0x11, 0xFF)] with y := 0x01 })
    (fun t => t.a == 0x21) = true := by decide

/-- T15 -/
theorem test_lda_absx_wraps : stepsTo ({ machineRam [0xBD, 0xFF, 0xFF] [(0x1, 0x44)] with x := 0x02 })
    (fun t => t.a == 0x44 && t.cycles == -4) = true := by decide

/-- T16 -/
theorem test_sta_zpx : stepsTo ({ machine [0x95, 0x10] with x := 0xF5, a := 0xAB })
    (fun t => t.ram == [(0x05, 0xAB)]) = true := by decide

/-- T17, first half -/
theorem test_ldx_zpy : stepsTo ({ machineRam [0xB6, 0x10] [(0x30, 0x5C)] with y := 0x20 })
    (fun t => t.x == 0x5C) = true := by decide

/-- T17, second half -/
theorem test_stx_zpy : stepsTo ({ machine [0x96, 0xF0] with y := 0x20, x := 0x5C })
    (fun t => t.ram == [(0x10, 0x5C)]) = true := by decide

/-- T18 -/
theorem test_sta_absy : stepsTo ({ machine [0x99, 0x00, 0x02] with y := 0xFF, a := 0x9A })
    (fun t => t.ram == [(0x2FF, 0x9A)] && t.cycles == -5) = true := by decide

/-- T19 -/
theorem test_sta_indx_display : stepsTo ({ machineRam [0x81, 0x40] [(0x45, 0x10)] with x := 0x04, a := 0x3D })
    (fun t => t.disp == [(0, 0x3D)]) = true := by decide

/-- T20: the immediate byte is the low byte of the idle vector -/
theorem test_immediate_at_vector : stepsTo ({ machine [] with
    pc := 0xFFFD, params := { Params.reference with image := [(0x3FFD, 0xA9)], vectorIdle := 0xE234 } })
    (fun t => t.a == 0x34 && t.pc == 0xFFFF) = true := by decide

/-- T21 -/
theorem test_jmp_ind_no_page_wrap : stepsTo (machineRam [0x6C, 0xFF, 0x02] [(0x200, 0x56), (0x2FF, 0x34), (0x300, 0x12)])
    (fun t => t.pc == 0x1234 && t.cycles == -5) = true := by decide

/-- T22 -/
theorem test_bvs_wraps : stepsTo ({ machine [] with
    pc := 0xFFFC, flags := fl false true false false false false,
    params := { Params.reference with image := [(0x3FFC, 0x70), (0x3FFD, 0x04)] } })
    (fun t => t.pc == 0x0002) = true := by decide

/-- T23, at 0xE000: −128 -/
theorem test_bmi_backwards : stepsTo ({ machine [0x30, 0x80] with flags := fl true false false false false false })
    (fun t => t.pc == 0xDF82) = true := by decide

/-- T30 -/
theorem test_lda_imm : stepsTo ({ machine [0xA9, 0x80] with flags := fl false false false false true false })
    (fun t => t.a == 0x80 && t.flags == fl true false false false false false && t.pc == 0xE002 && t.cycles == -2) = true := by decide

/-- T32 -/
theorem test_ldx_imm : stepsTo ({ machine [0xA2, 0x00] with x := 0x55 })
    (fun t => t.x == 0 && t.flags == fl false false false false true false) = true := by decide

/-- T33 -/
theorem test_ldy_zp : stepsTo (machineRam [0xA4, 0x10] [(0x10, 0x7F)])
    (fun t => t.y == 0x7F && t.flags == fl false false false false false false && t.cycles == -3) = true := by decide

/-- T34: three images of one cell -/
theorem test_sta_mirror : stepsTo ({ machine [0x8D, 0x00, 0x06] with a := 0x3C })
    (fun t => peek t 0x0000 == 0x3C && peek t 0x0600 == 0x3C && peek t 0x0C00 == 0x3C) = true := by decide

/-- T35: only an access flag -/
theorem test_sta_rom : stepsTo ({ machine [0x8D, 0x00, 0xC0] with a := 0xFF })
    (fun t => t == { machine [0x8D, 0x00, 0xC0] with
      a := 0xFF, pc := 0xE003, cycles := -4, acc := [(0xC000, 2), (0xE000, 1), (0xE001, 1), (0xE002, 1)] }) = true := by decide

/-- T36 -/
theorem test_stx_zp : stepsTo ({ machine [0x86, 0x20] with x := 0xFF })
    (fun t => t.ram == [(0x20, 0xFF)]) = true := by decide

/-- T37 -/
theorem test_sty_display : stepsTo ({ machine [0x8C, 0x00, 0x10] with y := 0x01 })
    (fun t => peek t 0x1200 == 1 && peek t 0x2E00 == 1) = true := by decide

/-- T38 -/
theorem test_tax : stepsTo ({ machine [0xAA] with x := 0x07 })
    (fun t => t.x == 0 && t.flags == fl false false false false true false) = true := by decide

/-- T39 -/
theorem test_tay : stepsTo ({ machine [0xA8] with a := 0x90 })
    (fun t => t.y == 0x90 && t.flags == fl true false false false false false) = true := by decide

/-- T40 -/
theorem test_txa_tya : stepsTo ({ machine [0x8A] with x := 0x01 })
    (fun t => t.a == 1 && t.flags == fl false false false false false false) = true ∧
    stepsTo ({ machine [0x98] with y := 0xFF })
    (fun t => t.a == 0xFF && t.flags == fl true false false false false false) = true := by decide

/-- T41, T42 -/
theorem test_tsx_txs : stepsTo ({ machine [0xBA] with x := 0x01 })
    (fun t => t.x == 0 && t.flags == fl false false false false true false) = true ∧
    stepsTo ({ machine [0x9A] with x := 0xFF })
    (fun t => t.sp == 0xFF && t.flags == fl false false false false false false) = true := by decide

/-- T46 -/
theorem test_pha_wraps : stepsTo ({ machine [0x48] with a := 0x11 })
    (fun t => t.ram == [(0x100, 0x11)] && t.sp == 0xFF && t.cycles == -3) = true := by decide

/-- T47 -/
theorem test_pla_wraps : stepsTo ({ machineRam [0x68] [(0x100, 0x77)] with sp := 0xFF })
    (fun t => t.a == 0x77 && t.sp == 0 && t.cycles == -4) = true := by decide

/-- T49 -/
theorem test_php : stepsTo ({ machine [0x08] with sp := 0xFF, flags := fl true false false true false true })
    (fun t => t.ram == [(0x1FF, 0xB5)] && t.sp == 0xFE && t.flags == fl true false false true false true) = true := by decide

/-- T50, T51 -/
theorem test_plp : stepsTo ({ machineRam [0x28] [(0x1FF, 0xFF)] with sp := 0xFE })
    (fun t => statusByte t.flags == 0xEF) = true ∧
    stepsTo ({ machineRam [0x28] [] with sp := 0xFE, flags := fl true true true true true true })
    (fun t => statusByte t.flags == 0x20) = true := by decide

/-- T57, T59 -/
theorem test_adc_signed : stepsTo ({ machine [0x69, 0x80] with a := 0x80, flags := fl false false false false false false })
    (fun t => t.a == 0x00 && t.flags == fl false true false false true true) = true ∧
    stepsTo ({ machine [0x69, 0x00] with a := 0x7F, flags := fl false false false false false true })
    (fun t => t.a == 0x80 && t.flags == fl true true false false false false) = true := by decide

/-- T58, T60: D is ignored -/
theorem test_adc_binary : stepsTo ({ machine [0x69, 0xFF] with a := 0xFF, flags := fl false false false false false true })
    (fun t => t.a == 0xFF && t.flags == fl true false false false false true) = true ∧
    stepsTo ({ machine [0x69, 0x01] with a := 0x09, flags := fl false false true false false false })
    (fun t => t.a == 0x0A && t.flags == fl false false true false false false) = true := by decide

/-- T62, T63 -/
theorem test_sbc_signed : stepsTo ({ machine [0xE9, 0x01] with a := 0x80, flags := fl false false false false false true })
    (fun t => t.a == 0x7F && t.flags == fl false true false false false true) = true ∧
    stepsTo ({ machine [0xE9, 0xFF] with a := 0x7F, flags := fl false false false false false true })
    (fun t => t.a == 0x80 && t.flags == fl true true false false false false) = true := by decide

/-- T64, T65 -/
theorem test_sbc_borrow : stepsTo ({ machine [0xE9, 0x50] with a := 0x50, flags := fl false false false false false true })
    (fun t => t.a == 0x00 && t.flags == fl false false false false true true) = true ∧
    stepsTo ({ machine [0xE9, 0x50] with a := 0x50, flags := fl false false false false false false })
    (fun t => t.a == 0xFF && t.flags == fl true false false false false false) = true := by decide

/-- T67 to T69 -/
theorem test_and_ora_eor : stepsTo ({ machine [0x29, 0x0F] with a := 0xF0 })
    (fun t => t.a == 0 && t.flags.z) = true ∧
    stepsTo ({ machine [0x09, 0x80] with a := 0x01 })
    (fun t => t.a == 0x81 && t.flags.n) = true ∧
    stepsTo ({ machine [0x49, 0xFF] with a := 0xAA })
    (fun t => t.a == 0x55) = true := by decide

/-- T70 -/
theorem test_cmp : stepsTo ({ machine [0xC9, 0x00] with a := 0x80 })
    (fun t => t.flags == fl true false false false false true) = true ∧
    stepsTo ({ machine [0xC9, 0x80] with flags := fl false true false false false false })
    (fun t => t.flags == fl true true false false false false && t.a == 0) = true := by decide

/-- T71, T72 -/
theorem test_cpx_cpy : stepsTo ({ machine [0xE0, 0x05] with x := 0x04 })
    (fun t => t.flags == fl true false false false false false) = true ∧
    stepsTo (machine [0xC0, 0x00])
    (fun t => t.flags == fl false false false false true true) = true := by decide

/-- T73, T74 -/
theorem test_bit : stepsTo ({ machineRam [0x24, 0x10] [(0x10, 0xC1)] with a := 0x01 })
    (fun t => t.flags == fl true true false false false false) = true ∧
    stepsTo ({ machineRam [0x24, 0x10] [(0x10, 0xC0)] with a := 0x3F })
    (fun t => t.flags == fl true true false false true false) = true := by decide

/-- T75, T76 -/
theorem test_asl_lsr : stepsTo ({ machine [0x0A] with a := 0x81 })
    (fun t => t.a == 2 && t.flags == fl false false false false false true && t.cycles == -2) = true ∧
    stepsTo (machineRam [0x46, 0x10] [(0x10, 0x02)])
    (fun t => t.ram == [(0x10, 1)] && t.flags == fl false false false false false false && t.cycles == -5) = true := by decide

/-- T77, T78 -/
theorem test_rol_ror : stepsTo ({ machine [0x2A] with a := 0x40, flags := fl false false false false false true })
    (fun t => t.a == 0x81 && t.flags == fl true false false false false false) = true ∧
    stepsTo ({ machine [0x6A] with a := 0x01, flags := fl false false false false false true })
    (fun t => t.a == 0x80 && t.flags == fl true false false false false true) = true := by decide

/-- T79, T80 -/
theorem test_inc_dec : stepsTo (machineRam [0xE6, 0x10] [(0x10, 0xFF)])
    (fun t => t.ram == [] && t.flags == fl false false false false true false) = true ∧
    stepsTo (machineRam [0xCE, 0x00, 0x02] [])
    (fun t => t.ram == [(0x200, 0xFF)] && t.flags == fl true false false false false false && t.cycles == -6) = true := by decide

/-- T81 -/
theorem test_inx_iny : stepsTo ({ machine [0xE8] with x := 0x7F })
    (fun t => t.x == 0x80 && t.flags.n) = true ∧ stepsTo (machine [0xC8])
    (fun t => t.y == 1) = true := by decide

/-- T81 -/
theorem test_dex_dey : stepsTo ({ machine [0xCA] with x := 0x01 })
    (fun t => t.x == 0 && t.flags.z) = true ∧ stepsTo ({ machine [0x88] with y := 0x80 })
    (fun t => t.y == 0x7F && !t.flags.n) = true := by decide

/-- T82: a read-modify-write of a register that clears the ones written -/
theorem test_inc_pending : stepsTo ({ machine [0xEE, 0x74, 0x30] with flags := fl false false false true false false, reg := [(0x74, 0x03)] })
    (fun t => t.reg == [(0x74, 0x03)] && !t.flags.z) = true := by decide

/-- T83 -/
theorem test_asl_pending : stepsTo ({ machine [0x0E, 0x74, 0x30] with flags := fl false false false true false false, reg := [(0x74, 0x03)] })
    (fun t => t.reg == [(0x74, 0x01)] && !t.flags.c) = true := by decide

/-- T85 -/
theorem test_jmp : stepsTo (machine [0x4C, 0x00, 0xE1])
    (fun t => t.pc == 0xE100 && t.cycles == -3) = true := by decide

/-- T87, at 0xE000 -/
theorem test_jsr : stepsTo ({ machine [0x20, 0x00, 0xE1] with sp := 0xFF })
    (fun t => t.ram == [(0x1FE, 0x02), (0x1FF, 0xE0)] && t.sp == 0xFD && t.pc == 0xE100 && t.cycles == -6) = true := by decide

/-- T88 -/
theorem test_rts : stepsTo ({ machineRam [0x60] [(0x1FE, 0x12), (0x1FF, 0xE0)] with sp := 0xFD })
    (fun t => t.pc == 0xE013 && t.sp == 0xFF) = true ∧
    stepsTo ({ machineRam [0x60] [(0x1FE, 0xFF), (0x1FF, 0xFF)] with sp := 0xFD })
    (fun t => t.pc == 0x0000) = true := by decide

/-- T89 -/
theorem test_bcc : stepsTo (machine [0x90, 0x02])
    (fun t => t.pc == 0xE004 && t.cycles == -2) = true ∧
    stepsTo ({ machine [0x90, 0x02] with flags := fl false false false false false true })
    (fun t => t.pc == 0xE002 && t.cycles == -2) = true := by decide

/-- T89b (BNE at 0xE000) -/
theorem test_bcs_beq_bne : stepsTo ({ machine [0xB0, 0xFE] with flags := fl false false false false false true })
    (fun t => t.pc == 0xE000) = true ∧
    stepsTo ({ machine [0xF0, 0x10] with flags := fl false false false false true false })
    (fun t => t.pc == 0xE012) = true ∧
    stepsTo (machine [0xD0, 0xFB])
    (fun t => t.pc == 0xDFFD) = true := by decide

/-- T89b -/
theorem test_bpl_bvc : stepsTo (machine [0x10, 0x7F])
    (fun t => t.pc == 0xE081) = true ∧ stepsTo (machine [0x50, 0x00])
    (fun t => t.pc == 0xE002) = true := by decide

/-- T92 -/
theorem test_flag_instructions : (List.all
      [((0x18 : Byte), fl false false false false false true, fl false false false false false false), (0x38, fl false false false false false false, fl false false false false false true), (0x58, fl false false false true false false, fl false false false false false false),
       (0x78, fl false false false false false false, fl false false false true false false), (0xD8, fl false false true false false false, fl false false false false false false), (0xF8, fl false false false false false false, fl false false true false false false), (0xB8, fl false true false false false false, fl false false false false false false)]
      fun p => stepsTo { machine [p.1] with flags := p.2.1 } fun t => t.flags == p.2.2 && t.cycles == -2) = true := by decide

/-- R238 -/
theorem test_nop : stepsTo (machine [0xEA])
    (fun t => t == { machine [0xEA] with pc := 0xE001, cycles := -2, acc := [(0xE000, 1)] }) = true := by decide

/-- T93 -/
theorem test_brk : stepsTo ({ machine [0x00] with sp := 0xFF })
    (fun t => t.ram == [(0x1FD, 0x30), (0x1FE, 0x02), (0x1FF, 0xE0)] && t.sp == 0xFC && t.flags == fl false false false true false false &&
      t.pc == 0xE200 && t.cycles == -7) = true := by decide

/-- T94, at 0xE000 -/
theorem test_rti : stepsTo ({ machineRam [0x40] [(0x1FD, 0x30), (0x1FE, 0x02), (0x1FF, 0xE0)] with sp := 0xFC, flags := fl false false false true false false })
    (fun t => statusByte t.flags == 0x20 && t.pc == 0xE002 && t.sp == 0xFF && t.cycles == -6) = true := by decide

/-- T101: the entry costs nothing -/
theorem test_irq_taken : runsTo [.env (.fireIrq 0), .cpu]
    ({ machine [0xEA] with
      sp := 0xFF
      reg := [(0x70, 0x80)]
      params := { Params.reference with image := [(0x2000, 0xEA), (0x2300, 0xEA), (0x3FC1, 0xE3)] } })
    (fun t => t.ram == [(0x1FD, 0x20), (0x1FF, 0xE0)] && t.flags.i && t.pc == 0xE301 && t.sp == 0xFC &&
      t.cycles == -2 && irqPend t == 0x8000) = true := by decide

/-- T105: the frame stays -/
theorem test_irq_then_undefined : stepsTo
    ({ machine [0xEA] with
      sp := 0xFF
      reg := [(0x73, 0x80)]
      params := { Params.reference with image := [(0x2000, 0xEA), (0x2300, 0xFF), (0x3FC1, 0xE3)] } })
    (fun t => t.sp == 0xFC && t.flags.i && t.halted && t.pc == 0xE301 && t.haltOpcode == 0xFF && t.haltAddr == 0xE300 &&
      t.cycles == 0) = true := by decide

/-- T102 -/
theorem test_irq_masked : stepsTo ({ machine [0xEA] with flags := fl false false false true false false, reg := [(0x74, 0x01)] })
    (fun t => t.pc == 0xE001 && t.sp == 0) = true := by decide

/-- T100, T103 -/
theorem test_irq_lost : fireIrq 0 State.reset = State.reset ∧
    fireIrq 16 { State.reset with reg := [(0x70, 0xFF), (0x71, 0xFF)] } = { State.reset with reg := [(0x70, 0xFF), (0x71, 0xFF)] } := by decide

/-- T107 -/
theorem test_nmi_entry : (fun t : State => t.ram == [(0x1FD, 0xA9), (0x1FE, 0x0A), (0x1FF, 0xE0)] && t.sp == 0xFC && t.pc == 0xE100 &&
      !t.flags.i) (nmi { machine [] with
        pc := 0xE00A, sp := 0xFF, flags := fl true false true false false true,
        params := { Params.reference with image := [(0x3FFB, 0xE1)] } }) = true := by decide

/-- T106 -/
theorem test_halt : runsTo [.cpu, .cpu, .env (.fireNmi 7)] ({ machine [0x02] with reg := [(0x76, 0x01)] })
    (fun t => t.halted && t.haltOpcode == 0x02 && t.haltAddr == 0xE000 && t.pc == 0xE001 && t.cycles == 0 && t.sp == 0 &&
      !(cpuReset t).halted) = true := by decide

/-- T108 -/
theorem test_pending_write_one_to_clear : irqPend (busWrite { State.reset with reg := [(0x73, 0x84), (0x74, 0x01)] } 0x3073 0x80) = 0x0401 ∧
    irqPend (busWrite { State.reset with reg := [(0x73, 0x04), (0x74, 0x01)] } 0x3074 0xFF) = 0x0400 ∧
    irqPend (busWrite { State.reset with reg := [(0x73, 0x04)] } 0x3073 0x00) = 0x0400 := by decide

/-- T114 to T116 -/
theorem test_port_b : portBLines State.reset = 0xFF ∧ portBLines { State.reset with reg := [(0x15, 0x07), (0x16, 0x04)] } = 0xFC ∧
    portBPins { State.reset with reg := [(0x15, 0x06), (0x16, 0x06)], ee := { Eeprom.construct [] with output := false } } =
      0xFE := by decide

/-- T6 -/
theorem test_reset_vector : (cpuReset { State.reset with params := { Params.reference with image := [(0x3FFD, 0xE0)] } }).pc = 0xE000 := by decide

/-- R49, R341, R353: `State.reset` is `reset()` run on the construction -/
theorem test_reset_state : State.reset = cpuReset (State.construct Params.reference [] [] []) := by decide

/-- T90, events 1 to 30: after START and the byte A0 with its acknowledge clock -/
theorem test_eeprom_first_byte : (fun r : Bool × Eeprom => r.1 == false && r.2.mode == .address && r.2.bits == 1 && r.2.inp == 0x41 && r.2.output == false)
    (eeSendByte 12 0xA0 (eeSendStart 12 (Eeprom.construct []))) = true := by decide +kernel

/-- T98 -/
theorem test_eeprom_nack : (fun r : Bool × Eeprom => r.1 && r.2.mode == .disabled)
    (eeSendByte 12 0x50 (eeSendStart 12 (Eeprom.construct []))) = true := by decide +kernel

/-- T99: one address byte -/
theorem test_eeprom_write_session : (fun r : List Bool × Eeprom => r.1 == [false, false, false] && r.2.array == [(0x7E, 0x99)] &&
      r.2.saves == [[(0x7E, 0x99)]] && r.2.mode == .disabled && !r.2.violation)
    (eeWriteSession 8 [0x7E] [0x99] (Eeprom.construct [])) = true := by decide +kernel

/-- T96 -/
theorem test_eeprom_read_wraps : (eeReadSession 12 [0x0F, 0xFF] 2 (Eeprom.construct [(0x000, 0x22), (0xFFF, 0x11)])).1 = [0x11, 0x22] := by decide +kernel

/-- T110, T111 -/
theorem test_eeprom_both_lines : (fun e : Eeprom => e.violation && e.mode == .disabled) (eeUpdate 12 true false false (Eeprom.construct [])) = true ∧
    (fun e : Eeprom => e.violation && e.mode == .command)
      (eeUpdate 12 true true false { Eeprom.construct [] with lastClk := false }) = true := by decide

/-- the word is what the next step runs, from reset and after an entry -/
theorem test_with_fetch_word : stepsTo (State.reset.withFetchWord 16 0x80A9) (fun t => t.a == 0x80 && t.pc == 0x0002 && t.cycles == -2) = true ∧
    stepsTo (State.reset.withFetchWord 24 0xE1004C) (fun t => t.pc == 0xE100) = true ∧
    stepsTo ((machine []).withFetchWord 8 0xE8) (fun t => t.x == 1 && t.pc == 0xE001) = true ∧
    stepsTo (({ State.reset with halted := true }).withFetchWord 8 0xC8) (fun t => t.y == 1) = true := by decide

/-! For each obligation with hypotheses, states and operands that meet them, clause by clause. -/

/-- A state with lines 0 and 15 enabled and pending, `I` clear, NMI line 7 enabled, code at 0xE000 and at the vector of
line 0, 0xE300. -/
def pendingState : State :=
  { machine [0xEA] with
    sp := 0xFF
    reg := [(0x70, 0x80), (0x71, 0x01), (0x73, 0x80), (0x74, 0x01), (0x76, 0x01)]
    params := { Params.reference with image := [(0x2000, 0xEA), (0x2300, 0xEA), (0x3FC1, 0xE3), (0x3FFD, 0xE0)] } }

/-- A halted state. -/
def haltedState : State := { machine [0x02] with halted := true, haltOpcode := 0x02, haltAddr := 0xE000, pc := 0xE001 }

/-- A state whose bank 1 lies beyond a short image. -/
def shortState : State :=
  { State.reset with reg := [(0x00, 0x01)], params := { Params.reference with imageLen := 0x4000 } }

theorem witness_EncodeOfDecodeIsIdentity : decode [0x4C, 0x00, 0xE1, 0xEA] = .ok (.jmpAbs 0xE100) [0xEA] := by decide
theorem witness_UndefinedOpcodesAreRejectedByName : (0xFF : Byte) &&& 3#8 = 3#8 ∧ (0x02 : Byte) &&& 0x0F#8 = 2#8 ∧
    (0x02 : Byte) ≠ 0xA2#8 := by decide
theorem witness_StepRunsTheDecodedInstruction : (machine [0xA9, 0x80]).params.valid = true ∧
    (machine [0xA9, 0x80]).halted = false ∧
    fetchBytes (Instr.ldaImm 0x80).length (irqGate (machine [0xA9, 0x80])) =
      ([0xA9, 0x80], { machine [0xA9, 0x80] with pc := 0xE002, acc := [(0xE000, 1), (0xE001, 1)] }) ∧
    decode [0xA9, 0x80] = .ok (.ldaImm 0x80) [] := by decide
theorem witness_FetchReadsBytesAndAdvancesPc :
    fetchBytes 2 { machine [] with pc := 0xFFFF } =
      ([0xE2, 0x00], { machine [] with pc := 0x0001, acc := [(0x0000, 1), (0xFFFF, 1)] }) ∧
    hasByte { machine [] with pc := 0xFFFF } (0xFFFF + BitVec.ofNat 16 0) = true ∧
    hasByte { machine [] with pc := 0xFFFF } (0xFFFF + BitVec.ofNat 16 1) = true := by decide
theorem witness_UndefinedOpcodeHaltsTheEngine : (machine [0x02]).params.valid = true ∧
    (machine [0x02]).halted = false ∧
    peek (irqGate (machine [0x02])) (irqGate (machine [0x02])).pc ∈ undefinedBytes := by decide
theorem witness_HaltedEngineDoesNothing : haltedState.halted = true ∧ haltedState.params.valid = true := by decide
theorem witness_OnlyResetRevivesTheEngine : haltedState.halted = true ∧ Event.cpu ≠ .env .reset ∧
    eventApply .cpu haltedState = .next haltedState ∧ Event.env (.fireNmi 7) ≠ .env .reset ∧
    eventApply (.env (.fireNmi 7)) haltedState = .next haltedState := ⟨by decide, by decide, rfl, by decide, rfl⟩
theorem witness_StepChargesTheTableCost : (machine [0x02]).halted = false ∧ (∃ t, step (machine [0x02]) = .next t) ∧
    pendingState.halted = false ∧ ∃ t, step pendingState = .next t := ⟨by decide, ⟨_, rfl⟩, by decide, ⟨_, rfl⟩⟩
theorem witness_StepIgnoresTheCycleBudget : ∃ t, step pendingState = .next t := ⟨_, rfl⟩
theorem witness_StepIgnoresAccessFlags : ∃ t, step pendingState = .next t := ⟨_, rfl⟩
theorem witness_OpenIrqGateEntersTheHandlerFirst : pendingState.params.valid = true ∧ pendingState.halted = false ∧
    pendingState.flags.i = false ∧ irqPend pendingState ≠ 0#16 ∧ irqPend State.reset = 0#16 ∧
    State.reset.params.valid = true ∧ State.reset.halted = false ∧
    (irqGate pendingState).flags.i = true ∧ (irqGate pendingState).params.valid = true ∧
    (irqGate pendingState).halted = false := by decide
theorem witness_NmiEntryPushesAndVectors : pendingState.params.valid = true := by decide
theorem witness_FireIrqSetsEnabledLine : stateWf pendingState = true ∧ 16 ≤ 16 ∧
    (irqEn pendingState).getLsbD (15 - 1) = false ∧ (irqEn pendingState).getLsbD (15 - 0) = true ∧
    (irqEn pendingState).getLsbD (15 - 15) = true ∧ (0x00 : Byte) ≠ pendingState.params.regIrqPendHi ∧
    (0x00 : Byte) ≠ pendingState.params.regIrqPendLo := by decide
theorem witness_FireNmiEntersWhenEnabled : pendingState.halted = false ∧ 8 ≤ 8 ∧
    (regByte pendingState pendingState.params.regNmiEn).getLsbD (7 - 0) = false ∧
    (regByte pendingState pendingState.params.regNmiEn).getLsbD (7 - 7) = true := by decide
theorem witness_HighestPendingBitSelectsVector : (0x8001#16).getLsbD 15 = true ∧ (∀ j, 15 < j → (0x8001#16).getLsbD j = false) ∧
    (0x0001#16).getLsbD 0 = true ∧ ∀ j, 0 < j → (0x0001#16).getLsbD j = false := by
  refine ⟨by decide, fun j hj => BitVec.getLsbD_of_ge _ j (by omega), by decide, fun j hj => ?_⟩
  rw [BitVec.getLsbD_one]
  simp
  omega
theorem witness_TopAddressesShowPriorityTable : (0xFFFE#16 = 0xFFFE ∨ 0xFFFE#16 = 0xFFFF) ∧
    (0xFFFF#16 = 0xFFFE ∨ 0xFFFF#16 = 0xFFFF) := by decide
theorem witness_StepSetsNoPendingBit : stateWf pendingState = true ∧ ∃ t, step pendingState = .next t :=
  ⟨by decide, _, rfl⟩
theorem witness_StepKeepsStateWellFormed : stateWf pendingState = true ∧ ∃ t, step pendingState = .next t :=
  ⟨by decide, _, rfl⟩
/-- The first three clauses by `fireIrq`; the others name their action. -/
theorem witness_EnvironmentKeepsStateWellFormed : stateWf pendingState = true ∧ EnvAction.fireIrq 3 ≠ .reset ∧
    (∀ line, EnvAction.fireIrq 3 ≠ .fireNmi line) ∧ (∀ k, EnvAction.fireIrq 3 ≠ .addCycles k) ∧
    EnvAction.setKeys 0xE = .setKeys 0xE ∧ EnvAction.insertFigure [1] = .insertFigure [1] ∧
    EnvAction.clearAccess 0xFFFF = .clearAccess 0xFFFF ∧ EnvAction.clearViolation = .clearViolation ∧
    EnvAction.addCycles 7 = .addCycles 7 :=
  ⟨by decide, by decide, (fun _ h => by cases h), (fun _ h => by cases h), rfl, rfl, rfl, rfl, rfl⟩
theorem witness_ResetClearsTheCpu : pendingState.params.valid = true ∧
    Memory.get pendingState.params.image 0x3FFC = 0x00#8 ∧ Memory.get pendingState.params.image 0x3FFD = 0xE0#8 := by decide
theorem witness_BusReadHasNoSideEffect : hasByte shortState 0xC000 = true ∧ hasByte shortState 0x4000 = false ∧
    stateWf shortState = true := by decide
theorem witness_AddressMapSelectsBacking : (0x0FFF#16).toNat ≤ 0x0FFF ∧
    (0x1000 ≤ (0x1000#16).toNat ∧ (0x2FFF#16).toNat ≤ 0x2FFF) ∧
    (0x3000 ≤ (0x3000#16).toNat ∧ (0x3FFF#16).toNat ≤ 0x3FFF ∧ 0xFF#8 = BitVec.ofNat 8 (0x3FFF#16).toNat) ∧
    (fun s t : State => t.keys = s.keys ∧ t.figure.isSome = s.figure.isSome ∧ t.reg = s.reg)
      { State.reset with figure := some [1] } { State.reset with figure := some [2], ram := [(0, 1)] } ∧
    (∀ k ∈ [(0 : Fin 4), 3], ({ State.reset with keys := 0x6 } : State).keys.getLsbD k.val = false) ∧
    (0x4000 ≤ (0xBFFF#16).toNat ∧ (0xBFFF#16).toNat ≤ 0xBFFF ∧
      0x8000 * ((regByte shortState shortState.params.regBank).toNat % 20) + ((0xBFFF#16).toNat - 0x4000) <
        Params.reference.imageLen) ∧
    (0xC000 ≤ (0xC000#16).toNat ∧ (0xFFFD#16).toNat ≤ 0xFFFD ∧ State.reset.params.valid = true) := by decide
theorem witness_ReadAfterWriteReturnsValue : stateWf State.reset = true ∧ (0x2FFF#16).toNat ≤ 0x2FFF ∧
    (0x3000 ≤ (0x3000#16).toNat ∧ (0x3FFF#16).toNat ≤ 0x3FFF ∧ 0xFF#8 = BitVec.ofNat 8 (0x3FFF#16).toNat) ∧
    0x4000 ≤ (0x4000#16).toNat := by decide
theorem witness_MirrorsShareStorage : stateWf State.reset = true ∧
    ((0x03FF#16).toNat ≤ 0x0FFF ∧ (0x0FFF#16).toNat ≤ 0x0FFF ∧ (0x03FF#16).toNat % 0x600 = (0x0FFF#16).toNat % 0x600) ∧
    (0x1000 ≤ (0x1000#16).toNat ∧ (0x2E00#16).toNat ≤ 0x2FFF ∧
      ((0x1000#16).toNat - 0x1000) % 0x200 = ((0x2E00#16).toNat - 0x1000) % 0x200) ∧
    (0x3000 ≤ (0x3073#16).toNat ∧ (0x3F73#16).toNat ≤ 0x3FFF ∧ (0x3073#16).toNat % 0x100 = (0x3F73#16).toNat % 0x100) := by
  decide
theorem witness_BankRegisterSelectsRomBank : stateWf State.reset = true ∧ 0x3000 ≤ (0x3F00#16).toNat ∧
    (0x3F00#16).toNat ≤ 0x3FFF ∧ BitVec.ofNat 8 (0x3F00#16).toNat = State.reset.params.regBank ∧
    0x4000 ≤ (0xBFFF#16).toNat ∧ (0xBFFF#16).toNat ≤ 0xBFFF ∧
    0x8000 * ((0xFF#8).toNat % 20) + ((0xBFFF#16).toNat - 0x4000) < State.reset.params.imageLen := by decide
theorem witness_RomWritesAreDiscarded : 0x4000 ≤ (0x4000#16).toNat ∧ 0x4000 ≤ (0xFFFF#16).toNat := by decide
theorem witness_RegisterWriteEffects : stateWf State.reset = true ∧ (0x01 : Byte) ≠ 0x73 ∧
    (0x15 : Byte) = State.reset.params.regPbDir ∧ (0x16 : Byte) = State.reset.params.regPbData ∧
    (0x01 : Byte) ≠ State.reset.params.regPbDir ∧ (0x01 : Byte) ≠ State.reset.params.regPbData ∧
    (0x3000 ≤ (0x3000#16).toNat ∧ (0x3000#16).toNat ≤ 0x3FFF ∧ (0x00 : Byte) = BitVec.ofNat 8 (0x3000#16).toNat) ∧
    (0x3000 ≤ (0x3FFF#16).toNat ∧ (0x3FFF#16).toNat ≤ 0x3FFF ∧ (0xFF : Byte) = BitVec.ofNat 8 (0x3FFF#16).toNat) ∧
    (0x15 : Byte) = BitVec.ofNat 8 (0x3F15#16).toNat := by decide
theorem witness_BusWriteFrame : hasByte State.reset 0x0001 = true ∧ ¬ StoreReaches State.reset 0x0000 0x0001 ∧
    ((0x2FFF#16).toNat < 0x3000 ∨ 0x4000 ≤ (0x2FFF#16).toNat) ∧
    ((0x4000#16).toNat < 0x3000 ∨ 0x4000 ≤ (0x4000#16).toNat) ∧ stateWf State.reset = true := 
  ⟨by decide, fun h => absurd (show (1 : Nat) = 0 from h) (by decide), by decide, by decide, by decide⟩
theorem witness_PushAndPull : stateWf State.reset = true ∧ hasByte State.reset 0x0000 = true ∧
    ¬ StoreReaches State.reset (0x0100#16 + BitVec.ofNat 16 State.reset.sp.toNat) 0x0000 :=
  ⟨by decide, by decide, fun h => absurd (show (0 : Nat) = 256 from h) (by decide)⟩
theorem witness_PortBLevels : 0 < 8 ∧ 7 < 8 := by decide
theorem witness_EepromStartAndStop : (Eeprom.construct []).lastData = true ∧
    ({ Eeprom.construct [] with lastData := false, mode := .write } : Eeprom).lastData = false := by decide
theorem witness_EepromClockEdges :
    (fun e : Eeprom => e.mode ≠ .disabled ∧ e.lastClk = false ∧ e.lastData = true)
      { Eeprom.construct [] with mode := .command, lastClk := false } ∧
    (fun e : Eeprom => e.mode ≠ .disabled ∧ e.bits < 8 ∧ e.lastClk = true ∧ e.lastData ≠ false)
      { Eeprom.construct [] with mode := .read, bits := 7 } ∧
    (Eeprom.construct []).mode = .disabled ∧ (Eeprom.construct []).lastData = true ∧
    (Eeprom.construct []).lastClk = true ∧ ({ Eeprom.construct [] with lastClk := false } : Eeprom).lastClk = false := by
  decide
theorem witness_EepromByteDispatch : (Eeprom.construct []).lastClk = true ∧
    ({ Eeprom.construct [] with bits := 8 } : Eeprom).bits = 8 ∧ (0xAE#8).toNat / 16 = 0xA ∧ (0xAE#8).toNat % 2 = 0 ∧
    (0xAF#8).toNat / 16 = 0xA ∧ (0xAF#8).toNat % 2 = 1 ∧ (0xB0#8).toNat / 16 ≠ 0xA := by decide
theorem witness_EepromArrayAndSaveEvents : (Eeprom.construct []).bits ≤ 8 ∧
    ({ Eeprom.construct [] with bits := 8 } : Eeprom).bits ≤ 8 := by decide
theorem witness_EepromRoundTrip : 1 ≤ 1 ∧ eepromWf 1 (Eeprom.construct [(1, 0x55)]) = true ∧
    (Eeprom.construct [(1, 0x55)]).lastClk = true ∧ (Eeprom.construct [(1, 0x55)]).lastData = true ∧
    [0xFF#8].length = (1 + 7) / 8 ∧ [0xDE#8, 0xAD#8].length ≤ 2 ^ 1 ∧
    eepromWf 12 (Eeprom.construct []) = true ∧ [0x01#8, 0x23#8].length = (12 + 7) / 8 := by decide
theorem witness_AddressingModesResolve : effectiveAddress (.zpx 0xFF) { State.reset with x := 0x02 } = some 0x0001 ∧
    effectiveAddress (.absy 0xFFFF) { State.reset with y := 0x01 } = some 0x0000 ∧ (Mode.imm 7) = .imm 7 := by decide
theorem witness_LoadsPutOperandInRegister : (Instr.ldaIndX 0xFF).mnemonic = .lda ∧ (Instr.ldxZpY 0x10).mnemonic = .ldx ∧
    (Instr.ldyAbsX 0xFFFF).mnemonic = .ldy := by decide
theorem witness_StoresWriteRegister : (Instr.staIndY 0xFF).mnemonic = .sta ∧ (Instr.stxZpY 0x10).mnemonic = .stx ∧
    (Instr.styAbs 0x3000).mnemonic = .sty := by decide
theorem witness_StackInstructions : 0x30#8 = (machineRam [0x28] [(0x1FF, 0x30)]).ram.get (0x100 +
    (({ machine [] with sp := 0xFE } : State).sp.toNat + 1) % 256) := by decide
theorem witness_AdcAdds : (Instr.adcIndY 0xFF).mnemonic = .adc := by decide
theorem witness_SbcSubtracts : (Instr.sbcAbsX 0xFFFF).mnemonic = .sbc := by decide
theorem witness_LogicOperations : (Instr.andImm 0).mnemonic = .and ∧ (Instr.oraZp 0).mnemonic = .ora ∧
    (Instr.eorAbs 0).mnemonic = .eor := by decide
theorem witness_ComparesSetFlags : (Instr.cmpImm 0).mnemonic = .cmp ∧ (Instr.cpxZp 0).mnemonic = .cpx ∧
    (Instr.cpyAbs 0).mnemonic = .cpy ∧ (Instr.bitZp 0).mnemonic = .bit := by decide
theorem witness_ShiftsAndRotates : Instr.aslAcc.mnemonic = .asl ∧ (Instr.lsrZp 0).mnemonic = .lsr ∧
    (Instr.rolAbsX 0).mnemonic = .rol ∧ (Instr.rorAbs 0).mnemonic = .ror := by decide
theorem witness_IncrementsAndDecrements : (Instr.incAbs 0x3074).mnemonic = .inc ∧ (Instr.decZpX 0xFF).mnemonic = .dec := by
  decide
theorem witness_JumpsAndSubroutines : stateWf State.reset = true ∧ hasByte State.reset 0xFFFF = true ∧
    hasByte State.reset (0xFFFF + 1) = true := by decide
theorem witness_BranchesTakeOnCondition : ({ machine [] with pc := 0xFFFE } : State).pc.toNat + (0x02#8).toInt = 0x10000 ∧
    BitVec.ofInt 16 (0x10000 : Int) = 0x0000 := by decide
theorem witness_RtiRestores : stateWf pendingState = true ∧ 0x00#8 = State.reset.ram.get (0x100 +
    (State.reset.sp + 1).toNat) := by decide
theorem witness_DecimalModeIgnored : (Instr.adcImm 0x01).mnemonic = .adc ∧ (Instr.sbcImm 0x01).mnemonic = .sbc := by decide
/-- One instruction that writes every flag: each clause's premise holds for it. -/
theorem witness_FlagsWrittenOnlyByTheirInstructions :
    ∃ t, exec .plp { State.reset with sp := 0xFE, ram := [(0x1FF, 0xFF)] } = .next t ∧ t.flags.c ≠ State.reset.flags.c ∧
      (t.flags.z ≠ State.reset.flags.z ∨ t.flags.n ≠ State.reset.flags.n) ∧ t.flags.i ≠ State.reset.flags.i ∧
      t.flags.d ≠ State.reset.flags.d ∧ t.flags.v ≠ State.reset.flags.v :=
  ⟨_, rfl, by decide, by decide, by decide, by decide, by decide⟩
theorem witness_RegistersWrittenOnlyByTheirInstructions :
    (∃ t, exec (.ldaImm 1) State.reset = .next t ∧ t.a ≠ State.reset.a) ∧
    (∃ t, exec .inx State.reset = .next t ∧ t.x ≠ State.reset.x) ∧
    (∃ t, exec .iny State.reset = .next t ∧ t.y ≠ State.reset.y) ∧
    (∃ t, exec .pha State.reset = .next t ∧ t.sp ≠ State.reset.sp) ∧
    (∃ t, exec (.jmpAbs 1) State.reset = .next t ∧ t.pc ≠ State.reset.pc) ∧
    (∃ t, exec (.incAbs 0x3000) State.reset = .next t ∧ (t.reg ≠ State.reset.reg ∨ t.ee ≠ State.reset.ee)) :=
  ⟨⟨_, rfl, by decide⟩, ⟨_, rfl, by decide⟩, ⟨_, rfl, by decide⟩, ⟨_, rfl, by decide⟩, ⟨_, rfl, by decide⟩,
    ⟨_, rfl, by decide⟩⟩
theorem witness_StoresReachOnlyTheirBytes :
    (∃ t, exec (.incZp 0) State.reset = .next t) ∧ hasByte State.reset 0x0001 = true ∧
    (∀ a ∈ storedAddresses (.incZp 0) State.reset, ¬ StoreReaches State.reset a 0x0001) ∧
    (∃ t, exec .nop State.reset = .next t) ∧ storedAddresses .nop State.reset = [] := by
  refine ⟨⟨_, rfl⟩, by decide, ?_, ⟨_, rfl⟩, rfl⟩
  intro a h
  have h' : a = 0x0000 := List.mem_singleton.1 (show a ∈ [0x0000#16] from h)
  subst h'
  exact fun h => absurd (show (1 : Nat) = 0 from h) (by decide)

end Sys2Proof.Tests
end

section
/-! Successive fetches (R9 `Fetch8`, R24, R100). -/

namespace Sys2Proof.Machine

@[simp] theorem fetchBytes_zero (s : State) : fetchBytes 0 s = ([], s) := rfl

@[simp] theorem fetchBytes_succ (n : Nat) (s : State) : fetchBytes (n + 1) s =
    ((fetch8 s).1 :: (fetchBytes n (fetch8 s).2).1, (fetchBytes n (fetch8 s).2).2) := rfl

/-- Reads do not look at `PC`: a state that only reads separate from `s` stays so when `PC` is set in both. -/
theorem sameButReads_setPc {s t : State} (h : SameButReads s t) (p : Word) : SameButReads (s.setPc p) (t.setPc p) :=
  congrArg (State.setPc · p) h

/-- One fetch leaves `PC` one further and otherwise what reads leave. -/
theorem sameButReads_fetch8 (s : State) : SameButReads (s.setPc (s.pc + 1)) (fetch8 s).2 :=
  sameButReads_setPc (sameButReads_busRead s s.pc) (s.pc + 1)

theorem hasByte_fetch8 (s : State) (a : Word) : hasByte (fetch8 s).2 a = hasByte s a :=
  hasByte_congr (sameButReads_reg (sameButReads_fetch8 s)) (sameButReads_params (sameButReads_fetch8 s)) a

/-- A fetch changes no byte that exists. -/
theorem peek_fetch8 (s : State) {a : Word} (h : hasByte s a = true) : peek (fetch8 s).2 a = peek s a :=
  sameBytes_of_sameButReads (sameButReads_fetch8 s) a h

/-- The address after the first of `k + 1` bytes and `k` more (modulo 0x10000, R24). -/
theorem add_ofNat_succ (a : Word) (k : Nat) : a + BitVec.ofNat 16 (k + 1) = a + 1 + BitVec.ofNat 16 k := by
  bv_omega

theorem fetchBytes_length (n : Nat) (s : State) : (fetchBytes n s).1.length = n := by
  induction n generalizing s with
  | zero => rfl
  | succ n ih => simp [ih]

theorem fetchBytes_pc (n : Nat) (s : State) : (fetchBytes n s).2.pc = s.pc + BitVec.ofNat 16 n := by
  induction n generalizing s with
  | zero => simp
  | succ n ih => rw [fetchBytes_succ, ih, fetch8_pc, add_ofNat_succ]

/-- `n` fetches leave `PC` moved and otherwise what reads leave. -/
theorem sameButReads_fetchBytes (n : Nat) (s : State) :
    SameButReads (s.setPc (fetchBytes n s).2.pc) (fetchBytes n s).2 := by
  induction n generalizing s with
  | zero => exact sameButReads_refl s
  | succ n ih =>
    have hfirst := sameButReads_setPc (sameButReads_fetch8 s) (fetchBytes n (fetch8 s).2).2.pc
    exact sameButReads_trans hfirst (ih (fetch8 s).2)

/-- Byte `k` of a fetch is the byte at `PC + k`, where there is one: no earlier fetch has changed it. -/
theorem fetchBytes_getElem? {n k : Nat} (s : State) (hk : k < n)
    (hb : hasByte s (s.pc + BitVec.ofNat 16 k) = true) :
    (fetchBytes n s).1[k]? = some (peek s (s.pc + BitVec.ofNat 16 k)) := by
  induction n generalizing s k with
  | zero => omega
  | succ n ih =>
    cases k with
    | zero => simp
    | succ k =>
      rw [add_ofNat_succ] at hb ⊢
      have hb' : hasByte (fetch8 s).2 ((fetch8 s).2.pc + BitVec.ofNat 16 k) = true := by
        rw [hasByte_fetch8]; exact hb
      rw [fetchBytes_succ, List.getElem?_cons_succ, ih _ (by omega) hb', fetch8_pc, peek_fetch8 s hb]

/-- Settles O6: each part by induction on the number of bytes. -/
theorem fetchReadsBytesAndAdvancesPc : Obligations.FetchReadsBytesAndAdvancesPc := by
  intro n s t bs h
  obtain ⟨rfl, rfl⟩ := Prod.mk.inj h
  exact ⟨fetchBytes_length n s, fetchBytes_pc n s, sameButReads_fetchBytes n s,
    fun _ hk hb => fetchBytes_getElem? s hk hb⟩

end Sys2Proof.Machine
end

section
/-! What the environment's actions write and keep (R6). -/

namespace Sys2Proof.Machine

/-! `fire_irq` (R272) writes the register block alone. -/

/-- `fire_irq` does nothing, or stores the two bytes of the pending mask. -/
theorem fireIrq_cases (line : Nat) (s : State) : fireIrq line s = s ∨
    ∃ h l, fireIrq line s = storeReg (storeReg s s.params.regIrqPendHi h) s.params.regIrqPendLo l := by
  unfold fireIrq
  dsimp only
  split
  · exact .inl rfl
  · exact .inr ⟨_, _, rfl⟩

theorem fireIrq_eq_setReg (line : Nat) (s : State) : ∃ m, fireIrq line s = s.setReg m := by
  obtain h | ⟨_, _, h⟩ := fireIrq_cases line s
  · exact ⟨s.reg, h⟩
  · exact ⟨_, h⟩

theorem fireIrq_wf (line : Nat) {s : State} (hs : stateWf s = true) : stateWf (fireIrq line s) = true := by
  obtain h | ⟨_, _, h⟩ := fireIrq_cases line s <;> rw [h]
  · exact hs
  · exact storeReg_wf _ _ (storeReg_wf _ _ hs)

/-! `fire_nmi` (R274) is an interrupt entry or nothing; an entry keeps the budget (D8), the halt fields and the launch
parameters. -/

theorem fireNmi_cases (line : Nat) (s : State) : fireNmi line s = s ∨ fireNmi line s = nmi s := by
  unfold fireNmi
  split
  · exact .inl rfl
  · split
    · exact .inl rfl
    · exact .inr rfl

theorem fireNmi_wf (line : Nat) {s : State} (hs : stateWf s = true) : stateWf (fireNmi line s) = true := by
  obtain h | h := fireNmi_cases line s <;> rw [h]
  · exact hs
  · exact nmi_wf hs

/-- An interrupt entry is three pushes, two reads and the load of `PC`, none of which writes these fields. -/
theorem nmi_keeps (s : State) : (nmi s).cycles = s.cycles ∧ (nmi s).halted = s.halted ∧
    (nmi s).haltOpcode = s.haltOpcode ∧ (nmi s).haltAddr = s.haltAddr ∧ (nmi s).params = s.params := by
  simp [nmi, enterInterrupt_eq, pushWord]

theorem fireNmi_keeps (line : Nat) (s : State) :
    (fireNmi line s).cycles = s.cycles ∧ (fireNmi line s).halted = s.halted ∧
    (fireNmi line s).haltOpcode = s.haltOpcode ∧ (fireNmi line s).haltAddr = s.haltAddr ∧
    (fireNmi line s).params = s.params := by
  obtain h | h := fireNmi_cases line s <;> rw [h]
  · exact ⟨rfl, rfl, rfl, rfl, rfl⟩
  · exact nmi_keeps s

/-- `reset()` reads two bytes and keeps the record of the halt (log 8) and the launch parameters. -/
theorem cpuReset_keeps (s : State) : (cpuReset s).haltOpcode = s.haltOpcode ∧ (cpuReset s).haltAddr = s.haltAddr ∧
    (cpuReset s).params = s.params := by
  simp [cpuReset]

/-! The observer's clearing of access flags (R90) and the violation flag (R314). -/

theorem clearAccess_wf (a : Word) {s : State} (hs : stateWf s = true) :
    stateWf (s.setAcc (Cells.set s.acc a.toNat 0)) = true :=
  stateWf_of_eq hs rfl rfl rfl rfl rfl (Cells_set_wf a.isLt (stateWf_acc hs))

/-- Clearing one address's flags leaves every other address's. -/
theorem clearAccess_get (a b : Word) {s : State} (hs : stateWf s = true) :
    Cells.get (Cells.set s.acc a.toNat 0) b.toNat = if b = a then 0#2 else Cells.get s.acc b.toNat := by
  split
  · next h => rw [h]; exact Cells_get_set_same (stateWf_acc hs)
  · next h => exact Cells_get_set_other fun e => h (BitVec.eq_of_toNat_eq e)

theorem clearViolation_wf {s : State} (hs : stateWf s = true) :
    stateWf (s.setEe { s.ee with violation := false }) = true := by
  obtain ⟨_, _, _, _, _, hee, _⟩ := (stateWf_iff s).1 hs
  exact setEe_wf hs hee

/-! The clauses, each by the action. -/

theorem envApply_wf (act : EnvAction) {s : State} (hs : stateWf s = true) : stateWf (envApply act s) = true := by
  cases act with
  | reset => exact cpuReset_wf hs
  | fireIrq line => exact fireIrq_wf line hs
  | fireNmi line => exact fireNmi_wf line hs
  | clearAccess a => exact clearAccess_wf a hs
  | clearViolation => exact clearViolation_wf hs
  | setKeys _ | insertFigure _ | addCycles _ => exact hs

/-- No action changes the launch parameters (log 1). -/
theorem envApply_params (act : EnvAction) (s : State) : (envApply act s).params = s.params := by
  cases act with
  | reset => obtain ⟨_, _, hp⟩ := cpuReset_keeps s; exact hp
  | fireIrq line => obtain ⟨m, h⟩ := fireIrq_eq_setReg line s; rw [envApply, h]; rfl
  | fireNmi line => obtain ⟨_, _, _, _, hp⟩ := fireNmi_keeps line s; exact hp
  | _ => rfl

/-- No action writes the record of the halt. -/
theorem envApply_haltRecord (act : EnvAction) (s : State) :
    (envApply act s).haltOpcode = s.haltOpcode ∧ (envApply act s).haltAddr = s.haltAddr := by
  cases act with
  | reset => obtain ⟨ho, ha, _⟩ := cpuReset_keeps s; exact ⟨ho, ha⟩
  | fireIrq line => obtain ⟨m, h⟩ := fireIrq_eq_setReg line s; rw [envApply, h]; exact ⟨rfl, rfl⟩
  | fireNmi line => obtain ⟨_, _, ho, ha, _⟩ := fireNmi_keeps line s; exact ⟨ho, ha⟩
  | _ => exact ⟨rfl, rfl⟩

/-- Only `reset()` writes `halted` (D7). -/
theorem envApply_halted {act : EnvAction} (s : State) (hr : act ≠ .reset) : (envApply act s).halted = s.halted := by
  cases act with
  | reset => exact absurd rfl hr
  | fireIrq line => obtain ⟨m, h⟩ := fireIrq_eq_setReg line s; rw [envApply, h]; rfl
  | fireNmi line => obtain ⟨_, hh, _⟩ := fireNmi_keeps line s; exact hh
  | _ => rfl

/-- Only `reset()` and the replenishment write the cycle budget. -/
theorem envApply_cycles {act : EnvAction} (s : State) (hr : act ≠ .reset) (hk : ∀ k, act ≠ .addCycles k) :
    (envApply act s).cycles = s.cycles := by
  cases act with
  | reset => exact absurd rfl hr
  | addCycles k => exact absurd rfl (hk k)
  | fireIrq line => obtain ⟨m, h⟩ := fireIrq_eq_setReg line s; rw [envApply, h]; rfl
  | fireNmi line => obtain ⟨hc, _⟩ := fireNmi_keeps line s; exact hc
  | _ => rfl

/-- Only `reset()` and `fire_nmi` reach the CPU registers, the flags and the two RAMs. -/
theorem envApply_cpu {act : EnvAction} (s : State) (hr : act ≠ .reset) (hn : ∀ line, act ≠ .fireNmi line) :
    (envApply act s).a = s.a ∧ (envApply act s).x = s.x ∧ (envApply act s).y = s.y ∧ (envApply act s).sp = s.sp ∧
    (envApply act s).pc = s.pc ∧ (envApply act s).flags = s.flags ∧ (envApply act s).ram = s.ram ∧
    (envApply act s).disp = s.disp := by
  cases act with
  | reset => exact absurd rfl hr
  | fireNmi line => exact absurd rfl (hn line)
  | fireIrq line =>
    obtain ⟨m, h⟩ := fireIrq_eq_setReg line s
    rw [envApply, h]
    exact ⟨rfl, rfl, rfl, rfl, rfl, rfl, rfl, rfl⟩
  | _ => exact ⟨rfl, rfl, rfl, rfl, rfl, rfl, rfl, rfl⟩

/-- Settles O22: the form and the frames hold action by action; the last five clauses are the actions' own writes. -/
theorem environmentKeepsStateWellFormed : Obligations.EnvironmentKeepsStateWellFormed := by
  intro act s hs
  obtain ⟨ho, ha⟩ := envApply_haltRecord act s
  refine ⟨envApply_wf act hs, envApply_params act s, envApply_cpu s, envApply_cycles s, envApply_halted s, ho, ha,
    ?setKeys, ?insertFigure, ?clearAccess, ?clearViolation, ?addCycles⟩
  case setKeys => rintro k rfl; rfl
  case insertFigure => rintro buffer rfl; rfl
  case clearAccess => rintro a rfl; exact ⟨rfl, fun b => clearAccess_get a b hs⟩
  case clearViolation => rintro rfl; rfl
  case addCycles => rintro k rfl; rfl

end Sys2Proof.Machine
end

section
/-! What an instruction may write, said once (R21 to R26, R140, R160, R210). The CPU's registers and flags are named by
`CpuField`. A meaning is a chain of bus reads, bus writes and writes of CPU fields (`WritesOnly`), and `exec_within` says
which of them each instruction makes. Frames and invariants then follow from one induction over the chain. -/

namespace Sys2Proof.Machine

/-! The registers and the flags, as fields that can be named. -/

/-- The CPU's registers (R21 to R24) and its six flags (R25). -/
inductive CpuField where
  | a | x | y | sp | pc | c | z | i | d | v | n

namespace CpuField

/-- What a field holds. -/
abbrev Content : CpuField → Type
  | .a | .x | .y | .sp => Byte
  | .pc => Word
  | .c | .z | .i | .d | .v | .n => Bool

/-- The content of a field. -/
def read (s : State) : (p : CpuField) → p.Content
  | .a => s.a
  | .x => s.x
  | .y => s.y
  | .sp => s.sp
  | .pc => s.pc
  | .c => s.flags.c
  | .z => s.flags.z
  | .i => s.flags.i
  | .d => s.flags.d
  | .v => s.flags.v
  | .n => s.flags.n

/-- The state with one field written. -/
def write (s : State) : (p : CpuField) → p.Content → State
  | .a, w => s.setA w
  | .x, w => s.setX w
  | .y, w => s.setY w
  | .sp, w => s.setSp w
  | .pc, w => s.setPc w
  | .c, w => s.setFlags { s.flags with c := w }
  | .z, w => s.setFlags { s.flags with z := w }
  | .i, w => s.setFlags { s.flags with i := w }
  | .d, w => s.setFlags { s.flags with d := w }
  | .v, w => s.setFlags { s.flags with v := w }
  | .n, w => s.setFlags { s.flags with n := w }

/-- Writing a field leaves every other field. -/
theorem read_write_other (s : State) {p q : CpuField} (w : q.Content) (h : p ≠ q) :
    p.read (q.write s w) = p.read s := by
  cases q <;> cases p <;> first | rfl | exact absurd rfl h

theorem write_read (s : State) (p : CpuField) : p.write s (p.read s) = s := by cases p <;> rfl

/-- Equal registers and flags read equal. -/
theorem read_congr {s t : State} (ha : t.a = s.a) (hx : t.x = s.x) (hy : t.y = s.y) (hsp : t.sp = s.sp)
    (hpc : t.pc = s.pc) (hf : t.flags = s.flags) (p : CpuField) : p.read t = p.read s := by
  cases p <;> simp only [read, ha, hx, hy, hsp, hpc, hf]

theorem read_busRead (s : State) (a : Word) (p : CpuField) : p.read (busRead s a).2 = p.read s :=
  read_congr (by simp) (by simp) (by simp) (by simp) (by simp) (by simp) p

theorem read_busWrite (s : State) (a : Word) (v : Byte) (p : CpuField) : p.read (busWrite s a v) = p.read s :=
  read_congr (by simp) (by simp) (by simp) (by simp) (by simp) (by simp) p

/-- A CPU field is no store: writing it keeps the form. -/
@[simp] theorem stateWf_write (s : State) (p : CpuField) (w : p.Content) : stateWf (p.write s w) = stateWf s := by
  cases p <;> rfl

@[simp] theorem irqPend_write (s : State) (p : CpuField) (w : p.Content) : irqPend (p.write s w) = irqPend s := by
  cases p <;> rfl

end CpuField

@[simp] theorem State.setFlags_setFlags (s : State) (f g : Flags) : (s.setFlags f).setFlags g = s.setFlags g := rfl

/-- The flags `g` differ from `f` in fields of `ps` alone. -/
def FlagChange (ps : List CpuField) (f g : Flags) : Prop :=
  (g.c ≠ f.c → .c ∈ ps) ∧ (g.z ≠ f.z → .z ∈ ps) ∧ (g.i ≠ f.i → .i ∈ ps) ∧ (g.d ≠ f.d → .d ∈ ps) ∧
    (g.v ≠ f.v → .v ∈ ps) ∧ (g.n ≠ f.n → .n ∈ ps)

/-! What a run of primitive operations may write. -/

/-- Which CPU fields and which bus addresses may be written. -/
structure Rights where
  field : CpuField → Prop
  addr : Word → Prop

/-- Everything may be written. -/
def Rights.all : Rights := ⟨fun _ => True, fun _ => True⟩

/-- All the listed fields may be written. -/
def Rights.Has (R : Rights) (ps : List CpuField) : Prop := ∀ p ∈ ps, R.field p

/-- `s` becomes `t` by bus reads, bus writes and writes of CPU fields, the writes within `R`. -/
inductive WritesOnly (R : Rights) (s : State) : State → Prop
  | refl : WritesOnly R s s
  | read {t : State} (h : WritesOnly R s t) (a : Word) : WritesOnly R s (busRead t a).2
  | write {t : State} {a : Word} (h : WritesOnly R s t) (v : Byte) (ha : R.addr a) : WritesOnly R s (busWrite t a v)
  | set {t : State} (h : WritesOnly R s t) (p : CpuField) (w : p.Content) (hp : R.field p) :
      WritesOnly R s (p.write t w)

section
variable {R : Rights} {s t : State}

namespace WritesOnly

/-! What follows from it: a frame for each part of the state, and the canonical form. -/

/-- A field that may not be written is left. -/
theorem read_eq (h : WritesOnly R s t) {p : CpuField} (hp : ¬ R.field p) : p.read t = p.read s := by
  induction h with
  | refl => rfl
  | read _ a ih => rw [CpuField.read_busRead, ih]
  | write _ v _ ih => rw [CpuField.read_busWrite, ih]
  | set _ q w hq ih =>
    have hne : p ≠ q := fun e => hp (e ▸ hq)
    rw [CpuField.read_write_other _ _ hne, ih]

/-- A field that has changed may be written. -/
theorem field_of_ne (h : WritesOnly R s t) (p : CpuField) (hne : p.read t ≠ p.read s) : R.field p := by
  by_contra hp
  exact hne (h.read_eq hp)

/-- Nothing here writes the cycle budget, the halt and its record, the keypad, the figure or the launch parameters. -/
theorem keeps (h : WritesOnly R s t) : t.halted = s.halted ∧ t.haltOpcode = s.haltOpcode ∧ t.haltAddr = s.haltAddr ∧
    t.keys = s.keys ∧ t.figure = s.figure ∧ t.params = s.params ∧ t.cycles = s.cycles := by
  induction h with
  | refl => exact ⟨rfl, rfl, rfl, rfl, rfl, rfl, rfl⟩
  | read _ a ih => simpa using ih
  | write _ v _ ih => simpa using ih
  | set _ p w _ ih => cases p <;> exact ih

theorem wf (h : WritesOnly R s t) (hs : stateWf s = true) : stateWf t = true := by
  induction h with
  | refl => exact hs
  | read _ a ih => exact busRead_wf a ih
  | write _ v _ ih => exact busWrite_wf _ v ih
  | set _ p w _ ih => rw [CpuField.stateWf_write]; exact ih

/-! Chains of shared operations. -/

/-- Resolving a mode makes bus reads alone. -/
theorem resolve (h : WritesOnly R s t) (m : Mode) : WritesOnly R s (resolve m t).2 := by
  cases m with
  | indx _ | indy _ | ind _ => exact (h.read _).read _
  | _ => exact h

theorem opRead (h : WritesOnly R s t) (loc : Operand) : WritesOnly R s (opRead loc t).2 := by
  cases loc with
  | mem a => exact h.read a
  | acc | imm _ => exact h

theorem readOperand (h : WritesOnly R s t) (m : Mode) : WritesOnly R s (readOperand m t).2 := (h.resolve m).opRead _

theorem opWrite (h : WritesOnly R s t) {loc : Operand} (v : Byte) (hmem : ∀ a, loc = .mem a → R.addr a)
    (hacc : loc = .acc → R.field .a) : WritesOnly R s (opWrite loc v t) := by
  cases loc with
  | mem a => exact h.write v (hmem a rfl)
  | acc => exact h.set .a v (hacc rfl)
  | imm _ => exact h

theorem jumpTo (h : WritesOnly R s t) (loc : Operand) (hpc : R.field .pc) : WritesOnly R s (jumpTo loc t) := by
  cases loc with
  | mem a => exact h.set .pc a hpc
  | acc | imm _ => exact h

theorem fetch8 (h : WritesOnly R s t) (hpc : R.field .pc) : WritesOnly R s (fetch8 t).2 := (h.read _).set .pc _ hpc

theorem push (h : WritesOnly R s t) (v : Byte) (hsp : R.field .sp) (ha : R.addr (stackAddr t.sp)) :
    WritesOnly R s (push v t) := (h.write v ha).set .sp _ hsp

theorem pushWord (h : WritesOnly R s t) (w : Word) (hsp : R.field .sp) (ha : R.addr (stackAddr t.sp))
    (ha1 : R.addr (stackAddr (t.sp - 1))) : WritesOnly R s (pushWord w t) :=
  (h.push _ hsp ha).push _ hsp (by rw [push_sp]; exact ha1)

theorem pull (h : WritesOnly R s t) (hsp : R.field .sp) : WritesOnly R s (pull t).2 := (h.set .sp _ hsp).read _

theorem pullWord (h : WritesOnly R s t) (hsp : R.field .sp) : WritesOnly R s (pullWord t).2 := (h.pull hsp).pull hsp

/-- A field that may not be written may still be set to what it holds. -/
theorem setOf (h : WritesOnly R s t) (p : CpuField) (w : p.Content) (hp : w ≠ p.read t → R.field p) :
    WritesOnly R s (p.write t w) := by
  by_cases hw : w = p.read t
  · rw [hw, CpuField.write_read]; exact h
  · exact h.set p w (hp hw)

/-- Setting the flags writes those that change. -/
theorem setFlags (h : WritesOnly R s t) {ps : List CpuField} {f : Flags} (hf : FlagChange ps t.flags f)
    (hR : R.Has ps) : WritesOnly R s (t.setFlags f) := by
  obtain ⟨hc, hz, hi, hd, hv, hn⟩ := hf
  have hall := (((((h.setOf .c f.c fun e => hR _ (hc e)).setOf .z f.z fun e => hR _ (hz e)).setOf .i f.i
    fun e => hR _ (hi e)).setOf .d f.d fun e => hR _ (hd e)).setOf .v f.v fun e => hR _ (hv e)).setOf .n f.n
    fun e => hR _ (hn e)
  simpa only [CpuField.write, State.setFlags_flags, State.setFlags_setFlags] using hall

/-- An entry writes three stack bytes, `S` and `PC` (R265, R266). -/
theorem enterInterrupt (h : WritesOnly R s t) (status : Byte) (vector : Word) (hsp : R.field .sp) (hpc : R.field .pc)
    (ha : R.addr (stackAddr t.sp)) (ha1 : R.addr (stackAddr (t.sp - 1))) (ha2 : R.addr (stackAddr (t.sp - 2))) :
    WritesOnly R s (enterInterrupt status vector t) := by
  have hsp2 : (Machine.pushWord t.pc t).sp = t.sp - 2 := by simp [Machine.pushWord, BitVec.sub_sub]
  have hpushed := (h.pushWord t.pc hsp ha ha1).push status hsp (by rw [hsp2]; exact ha2)
  rw [enterInterrupt_eq, busRead16_snd]
  exact ((hpushed.read _).read _).set .pc _ hpc

/-- An IRQ or BRK entry sets `I` besides (R266). -/
theorem irq (h : WritesOnly R s t) (fromBreak : Bool) (hR : R.Has [.sp, .pc, .i]) (ha : R.addr (stackAddr t.sp))
    (ha1 : R.addr (stackAddr (t.sp - 1))) (ha2 : R.addr (stackAddr (t.sp - 2))) :
    WritesOnly R s (irq fromBreak t) := by
  simp only [Rights.Has, List.forall_mem_cons] at hR
  obtain ⟨hsp, hpc, hi, -⟩ := hR
  exact (h.enterInterrupt _ _ hsp hpc ha ha1 ha2).set .i true hi

end WritesOnly
end

end Sys2Proof.Machine
end

section
/-! What each instruction may write (the column 'written by' of R26; R21 to R24; R140, R160, R190), and that it writes
nothing else. -/

namespace Sys2Proof.Machine

/-- The mnemonics that write a field. An accumulator form writes `A` besides (R105). -/
def fieldWriters : CpuField → List Mnemonic
  | .a => [.adc, .sbc, .and, .ora, .eor, .lda, .pla, .txa, .tya]
  | .x => [.ldx, .tax, .tsx, .inx, .dex]
  | .y => [.ldy, .tay, .iny, .dey]
  | .sp => [.pha, .php, .pla, .plp, .jsr, .rts, .brk, .rti, .txs]
  | .pc => [.bcc, .bcs, .beq, .bne, .bmi, .bpl, .bvc, .bvs, .jmp, .jsr, .rts, .rti, .brk]
  | .c => [.adc, .sbc, .cmp, .cpx, .cpy, .asl, .lsr, .rol, .ror, .clc, .sec, .plp, .rti]
  | .z | .n => [.lda, .ldx, .ldy, .tax, .tay, .txa, .tya, .tsx, .pla, .adc, .sbc, .and, .ora, .eor, .cmp, .cpx, .cpy,
      .bit, .asl, .lsr, .rol, .ror, .inc, .dec, .inx, .iny, .dex, .dey, .plp, .rti]
  | .i => [.sei, .cli, .plp, .rti, .brk]
  | .d => [.sed, .cld, .plp, .rti]
  | .v => [.adc, .sbc, .bit, .clv, .plp, .rti]

/-- What an instruction may write: its fields, and the bytes it stores to. -/
def instrRights (i : Instr) (s : State) : Rights where
  field p := i.mnemonic ∈ fieldWriters p ∨ (p = .a ∧ i.mode = .acc)
  addr a := a ∈ storedAddresses i s

theorem instrRights_has {i : Instr} {s : State} {m : Mnemonic} {ps : List CpuField} (hm : i.mnemonic = m)
    (h : ∀ p ∈ ps, m ∈ fieldWriters p) : (instrRights i s).Has ps := fun p hp => .inl (hm ▸ h p hp)

/-- The mnemonics that write their operand's location (R144 to R146, R190). -/
def storeMnemonics : List Mnemonic := [.sta, .stx, .sty, .asl, .lsr, .rol, .ror, .inc, .dec]

/-- The location a mode resolves to may be written. -/
def Rights.Location (R : Rights) (m : Mode) (s : State) : Prop :=
  (∀ a, (resolve m s).1 = .mem a → R.addr a) ∧ ((resolve m s).1 = .acc → R.field .a)

theorem mem_storedAddresses {i : Instr} {s : State} {a : Word} (h : i.mnemonic ∈ storeMnemonics)
    (ha : (resolve i.mode s).1 = .mem a) : a ∈ storedAddresses i s := by
  simp only [storeMnemonics, List.mem_cons, List.not_mem_nil, or_false] at h
  unfold storedAddresses
  rcases h with h | h | h | h | h | h | h | h | h <;> simp [h, ha]

/-- A data mode that resolves to the accumulator is the accumulator mode (R105). -/
theorem mode_acc_of_resolve {m : Mode} {s : State} (hd : dataMode m = true) (h : (resolve m s).1 = .acc) : m = .acc := by
  cases m with
  | acc => rfl
  | imp | ind _ | rel _ => cases hd
  | _ => simp [resolve] at h

theorem instrRights_location {i : Instr} {s : State} {m : Mnemonic} (hm : i.mnemonic = m) (h : m ∈ storeMnemonics) :
    (instrRights i s).Location i.mode s := by
  subst hm
  have hdata : dataMode i.mode = true := mode_dataMode i ((show storeMnemonics ⊆ _ by decide) h)
  exact ⟨fun a ha => mem_storedAddresses h ha, fun hacc => .inr ⟨rfl, mode_acc_of_resolve hdata hacc⟩⟩

/-! Flag computations and register updates, by what they write. -/

theorem flagChange_nz (r : Byte) (f : Flags) : FlagChange [.z, .n] f (flagsNZ r f) := by
  simp [FlagChange, flagsNZ]

/-- Compares (R177 to R179), shifts and rotates (R191 to R194). -/
theorem flagChange_nzc (r : Byte) (c : Bool) (f : Flags) : FlagChange [.z, .n, .c] f (flagsNZ r { f with c := c }) := by
  simp [FlagChange, flagsNZ]

theorem flagChange_addWithCarry (a m : Byte) (f : Flags) : FlagChange [.z, .n, .c, .v] f (addWithCarry a m f).flags := by
  simp [FlagChange, addWithCarry, flagsNZ]

theorem flagChange_bit (a m : Byte) (f : Flags) : FlagChange [.z, .n, .v] f (bitFlags a m f) := by
  simp [FlagChange, bitFlags]

/-- PLP and RTI write them all (R28). -/
theorem flagChange_all (f g : Flags) : FlagChange [.c, .z, .i, .d, .v, .n] f g := by simp [FlagChange]

/-- An update that writes the field `p` alone. -/
def RegWriter (p : CpuField) (put : State → Byte → State) : Prop :=
  ∀ (R : Rights) (s t : State) (w : Byte), R.field p → WritesOnly R s t → WritesOnly R s (put t w)

theorem regWriter_setA : RegWriter .a State.setA := fun _ _ _ w hp h => h.set .a w hp
theorem regWriter_setX : RegWriter .x State.setX := fun _ _ _ w hp h => h.set .x w hp
theorem regWriter_setY : RegWriter .y State.setY := fun _ _ _ w hp h => h.set .y w hp

/-! The families of meanings. -/

/-- A meaning answers a next state that it reached within `R`. -/
def Within (R : Rights) (s : State) (ans : Answer) : Prop := ∃ t, ans = .next t ∧ WritesOnly R s t

section
variable {R : Rights} {s : State} {m : Mode} {ps : List CpuField} {p : CpuField} {put : State → Byte → State}

theorem within_next {t : State} (h : WritesOnly R s t) : Within R s (.next t) := ⟨t, rfl, h⟩

theorem within_load (hput : RegWriter p put) (hR : R.Has [p, .z, .n]) : Within R s (load put m s) := by
  obtain ⟨hp, hnz⟩ := List.forall_mem_cons.1 hR
  exact within_next ((hput _ _ _ _ hp (WritesOnly.refl.readOperand m)).setFlags (flagChange_nz _ _) hnz)

theorem within_transfer (hput : RegWriter p put) {v : Byte} (hR : R.Has [p, .z, .n]) : Within R s (transfer put v s) := by
  obtain ⟨hp, hnz⟩ := List.forall_mem_cons.1 hR
  exact within_next ((hput _ _ _ v hp .refl).setFlags (flagChange_nz _ _) hnz)

theorem within_store {v : Byte} (hR : R.Location m s) : Within R s (store v m s) := by
  obtain ⟨hmem, hacc⟩ := hR
  exact within_next ((WritesOnly.refl.resolve m).opWrite v hmem hacc)

theorem within_alu {op : Byte → Byte → Flags → AluResult} (hop : ∀ a b f, FlagChange ps f (op a b f).flags)
    (hR : R.Has (.a :: ps)) : Within R s (alu op m s) := by
  obtain ⟨ha, hflags⟩ := List.forall_mem_cons.1 hR
  exact within_next (((WritesOnly.refl.readOperand m).set .a _ ha).setFlags (hop _ _ _) hflags)

theorem within_flagsOnly {op : Byte → Flags → Flags} (hop : ∀ b f, FlagChange ps f (op b f)) (hR : R.Has ps) :
    Within R s (flagsOnly op m s) := within_next ((WritesOnly.refl.readOperand m).setFlags (hop _ _) hR)

theorem opWrite_flags (loc : Operand) (v : Byte) (s : State) : (opWrite loc v s).flags = s.flags := by
  cases loc <;> simp [opWrite]

theorem within_readModifyWrite {op : Byte → Flags → AluResult} (hop : ∀ b f, FlagChange ps f (op b f).flags)
    (hR : R.Has ps) (hloc : R.Location m s) : Within R s (readModifyWrite op m s) := by
  obtain ⟨hmem, hacc⟩ := hloc
  have hread := (WritesOnly.refl.resolve (R := R) (s := s) m).opRead (resolve m s).1
  exact within_next ((hread.opWrite _ hmem hacc).setFlags (by rw [opWrite_flags]; exact hop _ _) hR)

theorem within_stepRegister (hput : RegWriter p put) {r : AluResult}
    (hflags : FlagChange [.z, .n] (put s r.value).flags r.flags) (hR : R.Has [p, .z, .n]) :
    Within R s (stepRegister put r s) := by
  obtain ⟨hp, hnz⟩ := List.forall_mem_cons.1 hR
  exact within_next ((hput _ _ _ _ hp .refl).setFlags hflags hnz)

theorem within_branch {cond : Bool} {d : Byte} (hR : R.Has [.pc]) : Within R s (branch cond d s) := by
  rw [branch_eq]
  cases cond
  · exact within_next .refl
  · exact within_next (WritesOnly.refl.set .pc _ (hR _ List.mem_cons_self))

theorem within_jump (hR : R.Has [.pc]) : Within R s (jump m s) :=
  within_next ((WritesOnly.refl.resolve m).jumpTo _ (hR _ List.mem_cons_self))

/-- A flag instruction writes its flag (R231 to R237). -/
theorem within_writeFlag (w : p.Content) (hR : R.Has [p]) : Within R s (.next (p.write s w)) :=
  within_next (WritesOnly.refl.set p w (hR p List.mem_cons_self))

theorem within_push (v : Byte) (hR : R.Has [.sp]) (ha : R.addr (stackAddr s.sp)) : Within R s (.next (push v s)) :=
  within_next (WritesOnly.refl.push v (hR _ List.mem_cons_self) ha)

theorem within_jsr (a : Word) (hR : R.Has [.sp, .pc]) (h0 : R.addr (stackAddr s.sp))
    (h1 : R.addr (stackAddr (s.sp - 1))) : Within R s (execJsr a s) := by
  simp only [Rights.Has, List.forall_mem_cons] at hR
  obtain ⟨hsp, hpc, -⟩ := hR
  rw [execJsr_eq]
  exact within_next ((WritesOnly.refl.pushWord _ hsp h0 h1).set .pc a hpc)

theorem within_rts (hR : R.Has [.sp, .pc]) : Within R s (execRts s) := by
  simp only [Rights.Has, List.forall_mem_cons] at hR
  obtain ⟨hsp, hpc, -⟩ := hR
  exact within_next ((WritesOnly.refl.pullWord hsp).set .pc _ hpc)

theorem within_pla (hR : R.Has [.sp, .a, .z, .n]) : Within R s (execPla s) := by
  obtain ⟨hsp, hR⟩ := List.forall_mem_cons.1 hR
  obtain ⟨ha, hnz⟩ := List.forall_mem_cons.1 hR
  exact within_next (((WritesOnly.refl.pull hsp).set .a _ ha).setFlags (flagChange_nz _ _) hnz)

theorem within_plp (hR : R.Has [.sp, .c, .z, .i, .d, .v, .n]) : Within R s (execPlp s) := by
  obtain ⟨hsp, hflags⟩ := List.forall_mem_cons.1 hR
  exact within_next ((WritesOnly.refl.pull hsp).setFlags (flagChange_all _ _) hflags)

theorem within_rti (hR : R.Has [.sp, .pc, .c, .z, .i, .d, .v, .n]) : Within R s (execRti s) := by
  obtain ⟨hsp, hR⟩ := List.forall_mem_cons.1 hR
  obtain ⟨hpc, hflags⟩ := List.forall_mem_cons.1 hR
  exact within_next ((((WritesOnly.refl.pull hsp).setFlags (flagChange_all _ _) hflags).pullWord hsp).set .pc _ hpc)

/-- BRK skips its signature byte and enters the handler (R239). -/
theorem within_brk (hR : R.Has [.sp, .pc, .i]) (h0 : R.addr (stackAddr s.sp)) (h1 : R.addr (stackAddr (s.sp - 1)))
    (h2 : R.addr (stackAddr (s.sp - 2))) : Within R s (execBrk s) :=
  within_next ((WritesOnly.refl.set .pc (s.pc + 1) (hR _ (by simp))).irq true hR h0 h1 h2)

end

/-- Every instruction answers a next state, and writes the fields and bytes of its row alone. -/
theorem exec_within (i : Instr) (s : State) : Within (instrRights i s) s (exec i s) := by
  cases hm : i.mnemonic with
  | lda => rw [exec_lda i s hm]; exact within_load regWriter_setA (instrRights_has hm (by decide))
  | ldx => rw [exec_ldx i s hm]; exact within_load regWriter_setX (instrRights_has hm (by decide))
  | ldy => rw [exec_ldy i s hm]; exact within_load regWriter_setY (instrRights_has hm (by decide))
  | sta => rw [exec_sta i s hm]; exact within_store (instrRights_location hm (by decide))
  | stx => rw [exec_stx i s hm]; exact within_store (instrRights_location hm (by decide))
  | sty => rw [exec_sty i s hm]; exact within_store (instrRights_location hm (by decide))
  | adc => rw [exec_adc i s hm]; exact within_alu flagChange_addWithCarry (instrRights_has hm (by decide))
  | sbc =>
    rw [exec_sbc i s hm]
    exact within_alu (fun a b => flagChange_addWithCarry a (b ^^^ 0xFF#8)) (instrRights_has hm (by decide))
  | and =>
    rw [exec_and i s hm]
    exact within_alu (fun a b => flagChange_nz (a &&& b)) (instrRights_has hm (by decide))
  | ora =>
    rw [exec_ora i s hm]
    exact within_alu (fun a b => flagChange_nz (a ||| b)) (instrRights_has hm (by decide))
  | eor =>
    rw [exec_eor i s hm]
    exact within_alu (fun a b => flagChange_nz (a ^^^ b)) (instrRights_has hm (by decide))
  | cmp => rw [exec_cmp i s hm]; exact within_flagsOnly (fun _ _ => flagChange_nzc _ _ _) (instrRights_has hm (by decide))
  | cpx => rw [exec_cpx i s hm]; exact within_flagsOnly (fun _ _ => flagChange_nzc _ _ _) (instrRights_has hm (by decide))
  | cpy => rw [exec_cpy i s hm]; exact within_flagsOnly (fun _ _ => flagChange_nzc _ _ _) (instrRights_has hm (by decide))
  | bit => rw [exec_bit i s hm]; exact within_flagsOnly (flagChange_bit s.a) (instrRights_has hm (by decide))
  | asl =>
    rw [exec_asl i s hm]
    exact within_readModifyWrite (fun _ _ => flagChange_nzc _ _ _) (instrRights_has hm (by decide))
      (instrRights_location hm (by decide))
  | lsr =>
    rw [exec_lsr i s hm]
    exact within_readModifyWrite (fun _ _ => flagChange_nzc _ _ _) (instrRights_has hm (by decide))
      (instrRights_location hm (by decide))
  | rol =>
    rw [exec_rol i s hm]
    exact within_readModifyWrite (fun _ _ => flagChange_nzc _ _ _) (instrRights_has hm (by decide))
      (instrRights_location hm (by decide))
  | ror =>
    rw [exec_ror i s hm]
    exact within_readModifyWrite (fun _ _ => flagChange_nzc _ _ _) (instrRights_has hm (by decide))
      (instrRights_location hm (by decide))
  | inc =>
    rw [exec_inc i s hm]
    exact within_readModifyWrite (fun _ => flagChange_nz _) (instrRights_has hm (by decide))
      (instrRights_location hm (by decide))
  | dec =>
    rw [exec_dec i s hm]
    exact within_readModifyWrite (fun _ => flagChange_nz _) (instrRights_has hm (by decide))
      (instrRights_location hm (by decide))
  | tax => obtain rfl := eq_tax i hm; exact within_transfer regWriter_setX (instrRights_has hm (by decide))
  | tay => obtain rfl := eq_tay i hm; exact within_transfer regWriter_setY (instrRights_has hm (by decide))
  | txa => obtain rfl := eq_txa i hm; exact within_transfer regWriter_setA (instrRights_has hm (by decide))
  | tya => obtain rfl := eq_tya i hm; exact within_transfer regWriter_setA (instrRights_has hm (by decide))
  | tsx => obtain rfl := eq_tsx i hm; exact within_transfer regWriter_setX (instrRights_has hm (by decide))
  | txs => obtain rfl := eq_txs i hm; exact within_writeFlag (p := .sp) _ (instrRights_has hm (by decide))
  | inx =>
    obtain rfl := eq_inx i hm
    exact within_stepRegister regWriter_setX (flagChange_nz _ _) (instrRights_has hm (by decide))
  | iny =>
    obtain rfl := eq_iny i hm
    exact within_stepRegister regWriter_setY (flagChange_nz _ _) (instrRights_has hm (by decide))
  | dex =>
    obtain rfl := eq_dex i hm
    exact within_stepRegister regWriter_setX (flagChange_nz _ _) (instrRights_has hm (by decide))
  | dey =>
    obtain rfl := eq_dey i hm
    exact within_stepRegister regWriter_setY (flagChange_nz _ _) (instrRights_has hm (by decide))
  | bcc => obtain ⟨_, rfl⟩ := eq_bcc i hm; exact within_branch (instrRights_has hm (by decide))
  | bcs => obtain ⟨_, rfl⟩ := eq_bcs i hm; exact within_branch (instrRights_has hm (by decide))
  | beq => obtain ⟨_, rfl⟩ := eq_beq i hm; exact within_branch (instrRights_has hm (by decide))
  | bne => obtain ⟨_, rfl⟩ := eq_bne i hm; exact within_branch (instrRights_has hm (by decide))
  | bmi => obtain ⟨_, rfl⟩ := eq_bmi i hm; exact within_branch (instrRights_has hm (by decide))
  | bpl => obtain ⟨_, rfl⟩ := eq_bpl i hm; exact within_branch (instrRights_has hm (by decide))
  | bvc => obtain ⟨_, rfl⟩ := eq_bvc i hm; exact within_branch (instrRights_has hm (by decide))
  | bvs => obtain ⟨_, rfl⟩ := eq_bvs i hm; exact within_branch (instrRights_has hm (by decide))
  | jmp => rw [exec_jmp i s hm]; exact within_jump (instrRights_has hm (by decide))
  | jsr =>
    obtain ⟨a, rfl⟩ := eq_jsr i hm
    exact within_jsr a (instrRights_has hm (by decide)) List.mem_cons_self (List.mem_cons_of_mem _ List.mem_cons_self)
  | rts => obtain rfl := eq_rts i hm; exact within_rts (instrRights_has hm (by decide))
  | pha => obtain rfl := eq_pha i hm; exact within_push _ (instrRights_has hm (by decide)) List.mem_cons_self
  | php => obtain rfl := eq_php i hm; exact within_push _ (instrRights_has hm (by decide)) List.mem_cons_self
  | pla => obtain rfl := eq_pla i hm; exact within_pla (instrRights_has hm (by decide))
  | plp => obtain rfl := eq_plp i hm; exact within_plp (instrRights_has hm (by decide))
  | clc => obtain rfl := eq_clc i hm; exact within_writeFlag (p := .c) false (instrRights_has hm (by decide))
  | sec => obtain rfl := eq_sec i hm; exact within_writeFlag (p := .c) true (instrRights_has hm (by decide))
  | cli => obtain rfl := eq_cli i hm; exact within_writeFlag (p := .i) false (instrRights_has hm (by decide))
  | sei => obtain rfl := eq_sei i hm; exact within_writeFlag (p := .i) true (instrRights_has hm (by decide))
  | cld => obtain rfl := eq_cld i hm; exact within_writeFlag (p := .d) false (instrRights_has hm (by decide))
  | sed => obtain rfl := eq_sed i hm; exact within_writeFlag (p := .d) true (instrRights_has hm (by decide))
  | clv => obtain rfl := eq_clv i hm; exact within_writeFlag (p := .v) false (instrRights_has hm (by decide))
  | nop => obtain rfl := eq_nop i hm; exact within_next .refl
  | brk =>
    obtain rfl := eq_brk i hm
    exact within_brk (instrRights_has hm (by decide)) List.mem_cons_self (List.mem_cons_of_mem _ List.mem_cons_self)
      (List.mem_cons_of_mem _ (List.mem_cons_of_mem _ List.mem_cons_self))
  | rti => obtain rfl := eq_rti i hm; exact within_rti (instrRights_has hm (by decide))

/-- The same, of the state an instruction answers. -/
theorem exec_writesOnly {i : Instr} {s t : State} (h : exec i s = .next t) : WritesOnly (instrRights i s) s t := by
  obtain ⟨u, hu, hw⟩ := exec_within i s
  obtain rfl : t = u := by rw [h] at hu; injection hu
  exact hw

end Sys2Proof.Machine
end

section
/-! A step that answers a next state, as a chain of primitive operations. -/

namespace Sys2Proof.Machine

theorem WritesOnly.trans {R : Rights} {s t u : State} (h : WritesOnly R s t) (k : WritesOnly R t u) :
    WritesOnly R s u := by
  induction k with
  | refl => exact h
  | read _ a ih => exact ih.read a
  | write _ v ha ih => exact ih.write v ha
  | set _ p w hp ih => exact ih.set p w hp

/-- What may be written within `R` may be written where everything may. -/
theorem WritesOnly.weaken {R : Rights} {s t : State} (h : WritesOnly R s t) : WritesOnly Rights.all s t := by
  induction h with
  | refl => exact .refl
  | read _ a ih => exact ih.read a
  | write _ v _ ih => exact ih.write v trivial
  | set _ p w _ ih => exact ih.set p w trivial

theorem irqGate_writesOnly (s : State) : WritesOnly Rights.all s (irqGate s) := by
  obtain ⟨_, _, h⟩ | ⟨_, h⟩ := irqGate_cases s <;> rw [h]
  · exact WritesOnly.refl.irq false (fun _ _ => trivial) trivial trivial trivial
  · exact .refl

/-- The state a fetch leaves. -/
def Fetched.after : Fetched → State
  | .instr _ s => s
  | .undefinedOpcode _ s => s

theorem fetchInstr_writesOnly (s : State) : WritesOnly Rights.all s (fetchInstr s).after := by
  have h1 : WritesOnly Rights.all s (fetch8 s).2 := WritesOnly.refl.fetch8 trivial
  have h2 := h1.fetch8 trivial
  obtain ⟨_, h⟩ | ⟨_, _, _, ⟨_, h⟩ | ⟨_, _, _, h⟩ | ⟨_, _, _, h⟩⟩ := fetchInstr_cases s <;> rw [h]
  · exact h1
  · exact h1
  · exact h2
  · exact h2.fetch8 trivial

/-- One instruction is such a chain, and then the charge of its cost or the record of the halt. -/
theorem runInstruction_writesOnly {s t : State} (h : runInstruction s = .next t) : ∃ u, WritesOnly Rights.all s u ∧
    ((∃ k, t = u.setCycles k) ∨ ∃ op a, t = u.setHalt true op a) := by
  have hfetch := fetchInstr_writesOnly s
  obtain ⟨op, s1, hf, rfl⟩ | ⟨i, s1, u, hf, hx, rfl⟩ := runInstruction_cases h <;> rw [hf] at hfetch
  · exact ⟨s1, hfetch, .inr ⟨op, s.pc, rfl⟩⟩
  · exact ⟨u, hfetch.trans (exec_writesOnly hx).weaken, .inl ⟨_, rfl⟩⟩

/-- A step keeps what the primitive operations, the charge and the record of the halt keep. -/
theorem step_invariant {P : State → Prop} (hw : ∀ {s u}, WritesOnly Rights.all s u → P s → P u)
    (hc : ∀ {u} k, P u → P (u.setCycles k)) (hh : ∀ {u} op a, P u → P (u.setHalt true op a)) {s t : State}
    (hstep : step s = .next t) (hs : P s) : P t := by
  obtain ⟨_, ⟨_, rfl⟩ | ⟨_, hrun⟩⟩ := step_cases hstep
  · exact hs
  · obtain ⟨u, hu, ⟨k, rfl⟩ | ⟨op, a, rfl⟩⟩ := runInstruction_writesOnly hrun
    · exact hc k (hw ((irqGate_writesOnly s).trans hu) hs)
    · exact hh op a (hw ((irqGate_writesOnly s).trans hu) hs)

/-- Settles O21: every primitive operation keeps the form, and the cycle budget and the halt fields are no store. -/
theorem stepKeepsStateWellFormed : Obligations.StepKeepsStateWellFormed := by
  intro s t hs hstep
  exact step_invariant (P := fun u => stateWf u = true) (fun h => h.wf) (fun _ h => h) (fun _ _ h => h) hstep hs

/-- Settles O23, by evaluating the two checks at this one state. -/
theorem resetStateIsWellFormed : Obligations.ResetStateIsWellFormed := ⟨by decide, rfl⟩

end Sys2Proof.Machine
end

section
/-! The pending mask (R37): a write to a pending byte can only clear bits of it. `m &&& n = m` says that every bit of `m`
is a bit of `n`. -/

namespace Sys2Proof.Machine

theorem and_eq_self_trans {w : Nat} {l m n : BitVec w} (h : l &&& m = l) (k : m &&& n = m) : l &&& n = l := by
  rw [← h, BitVec.and_assoc, k]

theorem regByte_storeReg_same {s : State} (r v : Byte) (hs : stateWf s = true) : regByte (storeReg s r v) r = v := by
  obtain ⟨_, _, hreg, _⟩ := (stateWf_iff s).1 hs
  exact Memory_get_set_same hreg

theorem regByte_storeReg_other (s : State) {r q : Byte} (v : Byte) (h : q ≠ r) :
    regByte (storeReg s r v) q = regByte s q := Memory_get_set_other fun e => h (BitVec.eq_of_toNat_eq e)

/-- The three ways of a register write (R69): write-1-to-clear, port B, plain storage. -/
theorem regWrite_cases (s : State) (r v : Byte) :
    ((r = s.params.regIrqPendHi ∨ r = s.params.regIrqPendLo) ∧
      regWrite s r v = storeReg s r (regByte s r &&& ~~~ v)) ∨
    (r ≠ s.params.regIrqPendHi ∧ r ≠ s.params.regIrqPendLo ∧
      (regWrite s r v = portBUpdate (storeReg s r v) ∨ regWrite s r v = storeReg s r v)) := by
  unfold regWrite
  split
  · exact .inl ⟨‹_›, rfl⟩
  · next h =>
    obtain ⟨hhi, hlo⟩ := not_or.1 h
    refine .inr ⟨hhi, hlo, ?_⟩
    split
    · exact .inl rfl
    · exact .inr rfl

/-- A register write sets no bit of a pending byte. -/
theorem regWrite_pendByte {s : State} (r v : Byte) {q : Byte} (hs : stateWf s = true)
    (hq : q = s.params.regIrqPendHi ∨ q = s.params.regIrqPendLo) :
    regByte (regWrite s r v) q &&& regByte s q = regByte (regWrite s r v) q := by
  obtain ⟨_, h⟩ | ⟨hhi, hlo, h⟩ := regWrite_cases s r v
  · rw [h]
    by_cases e : q = r
    · rw [e, regByte_storeReg_same _ _ hs]; ac_nf
    · rw [regByte_storeReg_other s _ e, BitVec.and_self]
  · have e : q ≠ r := by
      rintro rfl
      exact hq.elim hhi hlo
    have hsame : regByte (regWrite s r v) q = regByte s q := by
      obtain h | h := h <;> (rw [h]; exact regByte_storeReg_other s v e)
    rw [hsame, BitVec.and_self]

theorem wordOf_and_wordOf (h l h' l' : Byte) : wordOf h l &&& wordOf h' l' = wordOf (h &&& h') (l &&& l') :=
  BitVec.and_append

theorem regWrite_irqPend {s : State} (r v : Byte) (hs : stateWf s = true) :
    irqPend (regWrite s r v) &&& irqPend s = irqPend (regWrite s r v) := by
  have hp : (regWrite s r v).params = s.params := by
    obtain ⟨_, _, h⟩ := regWrite_frame s r v
    rw [h]; rfl
  unfold irqPend
  rw [hp, wordOf_and_wordOf, regWrite_pendByte r v hs (.inl rfl), regWrite_pendByte r v hs (.inr rfl)]

/-- A bus write sets no pending bit: outside the register window the register block is left. -/
theorem busWrite_irqPend {s : State} (a : Word) (v : Byte) (hs : stateWf s = true) :
    irqPend (busWrite s a v) &&& irqPend s = irqPend (busWrite s a v) := by
  cases hd : decodeAddr s a with
  | reg r => rw [busWrite_reg v hd]; exact regWrite_irqPend r v (markAccess_wf 2 a hs)
  | ram off => rw [busWrite_ram v hd]; exact BitVec.and_self
  | disp off => rw [busWrite_disp v hd]; exact BitVec.and_self
  | rom off => rw [busWrite_rom v hd]; exact BitVec.and_self
  | vectorLow => rw [busWrite_vector v (.inl hd)]; exact BitVec.and_self
  | vectorHigh => rw [busWrite_vector v (.inr hd)]; exact BitVec.and_self

theorem WritesOnly.irqPend {R : Rights} {s t : State} (h : WritesOnly R s t) (hs : stateWf s = true) :
    irqPend t &&& irqPend s = irqPend t := by
  induction h with
  | refl => exact BitVec.and_self
  | read _ a ih => rw [irqPend_congr (busRead_reg _ a) (busRead_params _ a)]; exact ih
  | write h v _ ih => exact and_eq_self_trans (busWrite_irqPend _ v (h.wf hs)) ih
  | set _ p w _ ih => rw [CpuField.irqPend_write]; exact ih

/-- Settles O20: the pending bits after a step are among those before it. -/
theorem stepSetsNoPendingBit : Obligations.StepSetsNoPendingBit := by
  intro s t hs hstep
  obtain ⟨_, hsub⟩ : stateWf t = true ∧ irqPend t &&& irqPend s = irqPend t :=
    step_invariant (P := fun u => stateWf u = true ∧ irqPend u &&& irqPend s = irqPend u)
      (fun h ⟨hu, hp⟩ => ⟨h.wf hu, and_eq_self_trans (h.irqPend hu) hp⟩) (fun _ h => h) (fun _ _ h => h) hstep
      ⟨hs, BitVec.and_self⟩
  rw [← hsub, BitVec.and_assoc, BitVec.and_not_self]
  exact BitVec.and_zero

end Sys2Proof.Machine
end

section
/-! The written-by statements and the halt, read off the chains. -/

namespace Sys2Proof.Machine

/-! The register block and the EEPROM are reached through the register window alone (R63, R68). -/

/-- The register window (R68). -/
def RegWindow (a : Word) : Prop := 0x3000 ≤ a.toNat ∧ a.toNat ≤ 0x3FFF

theorem regWindow_of_decodeAddr {s : State} {a : Word} {r : Byte} (h : decodeAddr s a = .reg r) : RegWindow a := by
  unfold decodeAddr at h
  unfold RegWindow
  dsimp only at h
  repeat' split at h
  all_goals first | omega | cases h

theorem busWrite_outside_window {s : State} {a : Word} (v : Byte) (h : ¬ RegWindow a) :
    (busWrite s a v).reg = s.reg ∧ (busWrite s a v).ee = s.ee := by
  cases hd : decodeAddr s a with
  | reg r => exact absurd (regWindow_of_decodeAddr hd) h
  | ram off => rw [busWrite_ram v hd]; exact ⟨rfl, rfl⟩
  | disp off => rw [busWrite_disp v hd]; exact ⟨rfl, rfl⟩
  | rom off => rw [busWrite_rom v hd]; exact ⟨rfl, rfl⟩
  | vectorLow => rw [busWrite_vector v (.inl hd)]; exact ⟨rfl, rfl⟩
  | vectorHigh => rw [busWrite_vector v (.inr hd)]; exact ⟨rfl, rfl⟩

theorem WritesOnly.reg_ee_eq {R : Rights} {s t : State} (h : WritesOnly R s t)
    (hR : ∀ a, R.addr a → ¬ RegWindow a) : t.reg = s.reg ∧ t.ee = s.ee := by
  induction h with
  | refl => exact ⟨rfl, rfl⟩
  | read _ a ih => rw [busRead_reg, busRead_ee]; exact ih
  | write _ v ha ih =>
    obtain ⟨hreg, hee⟩ := busWrite_outside_window v (hR _ ha)
    rw [hreg, hee]; exact ih
  | set _ p w _ ih => cases p <;> exact ih

/-- If the register block or the EEPROM has changed, a byte of the register window was written. -/
theorem WritesOnly.window_of_ne {R : Rights} {s t : State} (h : WritesOnly R s t) (hne : t.reg ≠ s.reg ∨ t.ee ≠ s.ee) :
    ∃ a, R.addr a ∧ RegWindow a := by
  by_contra hno
  obtain ⟨hreg, hee⟩ := h.reg_ee_eq fun a ha hw => hno ⟨a, ha, hw⟩
  exact hne.elim (absurd hreg) (absurd hee)

/-- A field that an instruction changes is in the instruction's row. -/
theorem mem_fieldWriters {i : Instr} {s t : State} (h : exec i s = .next t) (p : CpuField) (hp : p ≠ .a)
    (hne : p.read t ≠ p.read s) : i.mnemonic ∈ fieldWriters p :=
  ((exec_writesOnly h).field_of_ne p hne).resolve_right fun ⟨ha, _⟩ => hp ha

/-- Settles O58: a flag that has changed was written within the instruction's rights. -/
theorem flagsWrittenOnlyByTheirInstructions : Obligations.FlagsWrittenOnlyByTheirInstructions := by
  intro i s t h
  refine ⟨mem_fieldWriters h .c (by simp), ?_, mem_fieldWriters h .i (by simp), mem_fieldWriters h .d (by simp),
    mem_fieldWriters h .v (by simp)⟩
  rintro (hz | hn)
  · exact mem_fieldWriters h .z (by simp) hz
  · exact mem_fieldWriters h .n (by simp) hn

/-- Settles O59: the same of the registers; the rest no primitive operation writes. -/
theorem registersWrittenOnlyByTheirInstructions : Obligations.RegistersWrittenOnlyByTheirInstructions := by
  intro i s t h
  have hw := exec_writesOnly h
  refine ⟨fun ha => (hw.field_of_ne .a ha).imp_right And.right, mem_fieldWriters h .x (by simp),
    mem_fieldWriters h .y (by simp), mem_fieldWriters h .sp (by simp), mem_fieldWriters h .pc (by simp),
    hw.window_of_ne, hw.keeps⟩

/-- Settles O9: a halted step is no step, and of the environment's actions `reset()` alone writes `halted`. -/
theorem onlyResetRevivesTheEngine : Obligations.OnlyResetRevivesTheEngine := by
  intro s hh
  refine ⟨fun e t he ht => ?_, rfl⟩
  cases e with
  | cpu =>
    obtain ⟨_, ⟨_, rfl⟩ | ⟨hrun, _⟩⟩ := step_cases ht
    · exact ⟨hh, rfl, rfl⟩
    · rw [hh] at hrun; cases hrun
  | env act =>
    have hact : act ≠ .reset := fun e => he (congrArg Event.env e)
    obtain rfl : envApply act s = t := by injection ht
    obtain ⟨ho, ha⟩ := envApply_haltRecord act s
    exact ⟨by rw [envApply_halted s hact, hh], ho, ha⟩

end Sys2Proof.Machine
end

section
/-! Two runs side by side (R90, R361): a relation of two states that every primitive operation keeps, and under which
the CPU and the bus show the same, is kept by a whole step. What a step does not read is then said by one relation. -/

namespace Sys2Proof.Machine

/-- `R` holds between two states that the CPU cannot tell apart, and the primitive operations keep it. -/
structure Indistinguishable (R : State → State → Prop) : Prop where
  field {s t : State} : R s t → ∀ p : CpuField, p.read t = p.read s
  peek {s t : State} : R s t → ∀ a, peek t a = peek s a
  irqPend {s t : State} : R s t → irqPend t = irqPend s
  halted {s t : State} : R s t → t.halted = s.halted
  params {s t : State} : R s t → t.params = s.params
  read {s t : State} : R s t → ∀ a, R (busRead s a).2 (busRead t a).2
  write {s t : State} : R s t → ∀ a v, R (busWrite s a v) (busWrite t a v)
  set {s t : State} : R s t → ∀ (p : CpuField) (w : p.Content), R (p.write s w) (p.write t w)
  charge {s t : State} : R s t → ∀ k : Int, R (s.setCycles (s.cycles - k)) (t.setCycles (t.cycles - k))
  halt {s t : State} : R s t → ∀ op a, R (s.setHalt true op a) (t.setHalt true op a)

/-- Two operations gave the same value, in related states. -/
def ReadAlike (R : State → State → Prop) {β : Type} (x y : β × State) : Prop := y.1 = x.1 ∧ R x.2 y.2

/-- Two meanings answered alike: related next states, or the same stop. -/
inductive AnswerAlike (R : State → State → Prop) : Answer → Answer → Prop
  | next {s t : State} (h : R s t) : AnswerAlike R (.next s) (.next t)
  | fault (f : Fault) : AnswerAlike R (.fault f) (.fault f)
  | refused (r : Refusal) : AnswerAlike R (.refused r) (.refused r)

/-- Two fetches gave the same instruction or the same undefined byte, in related states. -/
inductive FetchedAlike (R : State → State → Prop) : Fetched → Fetched → Prop
  | instr {s t : State} (i : Instr) (h : R s t) : FetchedAlike R (.instr i s) (.instr i t)
  | undefinedOpcode {s t : State} (op : Byte) (h : R s t) :
      FetchedAlike R (.undefinedOpcode op s) (.undefinedOpcode op t)

/-- Putting the same byte into a register keeps the relation. -/
def PutAlike (R : State → State → Prop) (put : State → Byte → State) : Prop :=
  ∀ s t, R s t → ∀ v, R (put s v) (put t v)

theorem putAlike_setA {R : State → State → Prop} (hR : Indistinguishable R) : PutAlike R State.setA :=
  fun _ _ h v => hR.set h .a v
theorem putAlike_setX {R : State → State → Prop} (hR : Indistinguishable R) : PutAlike R State.setX :=
  fun _ _ h v => hR.set h .x v
theorem putAlike_setY {R : State → State → Prop} (hR : Indistinguishable R) : PutAlike R State.setY :=
  fun _ _ h v => hR.set h .y v

section
variable {R : State → State → Prop} {s t : State} (hR : Indistinguishable R) (h : R s t)
include hR h

/-! The CPU's fields. -/

theorem alike_a : t.a = s.a := hR.field h .a
theorem alike_x : t.x = s.x := hR.field h .x
theorem alike_y : t.y = s.y := hR.field h .y
theorem alike_sp : t.sp = s.sp := hR.field h .sp
theorem alike_pc : t.pc = s.pc := hR.field h .pc

theorem alike_flags : t.flags = s.flags := by
  have hc : t.flags.c = s.flags.c := hR.field h .c
  have hz : t.flags.z = s.flags.z := hR.field h .z
  have hi : t.flags.i = s.flags.i := hR.field h .i
  have hd : t.flags.d = s.flags.d := hR.field h .d
  have hv : t.flags.v = s.flags.v := hR.field h .v
  have hn : t.flags.n = s.flags.n := hR.field h .n
  show Flags.mk _ _ _ _ _ _ = Flags.mk _ _ _ _ _ _
  rw [hc, hz, hi, hd, hv, hn]

theorem setFlags_alike (f : Flags) : R (s.setFlags f) (t.setFlags f) := by
  have hall := hR.set (hR.set (hR.set (hR.set (hR.set (hR.set h .c f.c) .z f.z) .i f.i) .d f.d) .v f.v) .n f.n
  simpa only [CpuField.write, State.setFlags_flags, State.setFlags_setFlags] using hall

theorem setNZ_alike (v : Byte) : R (setNZ v s) (setNZ v t) := by
  unfold setNZ
  rw [alike_flags hR h]
  exact setFlags_alike hR h _

/-! Bus words, fetches and the stack. -/

theorem busRead_alike (a : Word) : ReadAlike R (busRead s a) (busRead t a) := ⟨hR.peek h a, hR.read h a⟩

theorem busRead16_alike (a : Word) : ReadAlike R (busRead16 s a) (busRead16 t a) := by
  obtain ⟨hl, h1⟩ := busRead_alike hR h a
  obtain ⟨hh, h2⟩ := busRead_alike hR h1 (a + 1)
  exact ⟨congrArg₂ wordOf hh hl, h2⟩

theorem fetch8_alike : ReadAlike R (fetch8 s) (fetch8 t) := by
  unfold fetch8
  rw [alike_pc hR h]
  obtain ⟨hb, h1⟩ := busRead_alike hR h s.pc
  exact ⟨hb, hR.set h1 .pc _⟩

theorem push_alike (v : Byte) : R (push v s) (push v t) := by
  unfold push
  rw [alike_sp hR h]
  exact hR.set (hR.write h _ v) .sp _

theorem pushWord_alike (w : Word) : R (pushWord w s) (pushWord w t) := push_alike hR (push_alike hR h _) _

theorem pull_alike : ReadAlike R (pull s) (pull t) := by
  unfold pull
  rw [alike_sp hR h]
  exact busRead_alike hR (hR.set h .sp _) _

theorem pullWord_alike : ReadAlike R (pullWord s) (pullWord t) := by
  obtain ⟨hl, h1⟩ := pull_alike hR h
  obtain ⟨hh, h2⟩ := pull_alike hR h1
  exact ⟨congrArg₂ wordOf hh hl, h2⟩

/-! Exceptions. -/

theorem enterInterrupt_alike (status : Byte) (vector : Word) :
    R (enterInterrupt status vector s) (enterInterrupt status vector t) := by
  rw [enterInterrupt_eq, enterInterrupt_eq, alike_pc hR h]
  obtain ⟨hv, h1⟩ := busRead16_alike hR (push_alike hR (pushWord_alike hR h s.pc) status) vector
  rw [hv]
  exact hR.set h1 .pc _

theorem irq_alike (fromBreak : Bool) : R (irq fromBreak s) (irq fromBreak t) := by
  unfold irq
  rw [alike_flags hR h]
  exact hR.set (enterInterrupt_alike hR h _ irqVector) .i true

theorem returnFromInterrupt_alike : R (returnFromInterrupt s) (returnFromInterrupt t) := by
  dsimp only [returnFromInterrupt]
  obtain ⟨hp, h1⟩ := pull_alike hR h
  obtain ⟨hw, h2⟩ := pullWord_alike hR (setFlags_alike hR h1 (flagsOfByte (pull s).1))
  rw [hp, hw]
  exact hR.set h2 .pc _

/-! Operands. -/

theorem zeroPagePointer_alike (z : Byte) : ReadAlike R (zeroPagePointer z s) (zeroPagePointer z t) := by
  obtain ⟨hl, h1⟩ := busRead_alike hR h (zeroPage z)
  obtain ⟨hh, h2⟩ := busRead_alike hR h1 (zeroPage (z + 1))
  exact ⟨congrArg₂ wordOf hh hl, h2⟩

theorem resolve_alike (m : Mode) : ReadAlike R (resolve m s) (resolve m t) := by
  cases m with
  | imp | acc | imm _ | zp _ | abs _ => exact ⟨rfl, h⟩
  | zpx d => exact ⟨by simp only [resolve, alike_x hR h], h⟩
  | zpy d => exact ⟨by simp only [resolve, alike_y hR h], h⟩
  | absx a => exact ⟨by simp only [resolve, alike_x hR h], h⟩
  | absy a => exact ⟨by simp only [resolve, alike_y hR h], h⟩
  | rel d => exact ⟨by simp only [resolve, alike_pc hR h], h⟩
  | indx d =>
    obtain ⟨hp, h1⟩ := zeroPagePointer_alike hR h (d + s.x)
    simp only [resolve, alike_x hR h]
    exact ⟨congrArg Operand.mem hp, h1⟩
  | indy d =>
    obtain ⟨hp, h1⟩ := zeroPagePointer_alike hR h d
    simp only [resolve, alike_y hR h]
    exact ⟨congrArg (fun p => Operand.mem (absIndexed p s.y)) hp, h1⟩
  | ind a =>
    obtain ⟨hp, h1⟩ := busRead16_alike hR h a
    exact ⟨congrArg Operand.mem hp, h1⟩

theorem opRead_alike (loc : Operand) : ReadAlike R (opRead loc s) (opRead loc t) := by
  cases loc with
  | mem a => exact busRead_alike hR h a
  | acc => exact ⟨alike_a hR h, h⟩
  | imm _ => exact ⟨rfl, h⟩

theorem readOperand_alike (m : Mode) : ReadAlike R (readOperand m s) (readOperand m t) := by
  dsimp only [readOperand]
  obtain ⟨hloc, h1⟩ := resolve_alike hR h m
  rw [hloc]
  exact opRead_alike hR h1 _

theorem opWrite_alike (loc : Operand) (v : Byte) : R (opWrite loc v s) (opWrite loc v t) := by
  cases loc with
  | mem a => exact hR.write h a v
  | acc => exact hR.set h .a v
  | imm _ => exact h

theorem jumpTo_alike (loc : Operand) : R (jumpTo loc s) (jumpTo loc t) := by
  cases loc with
  | mem a => exact hR.set h .pc a
  | acc | imm _ => exact h

/-! The families of meanings. -/

theorem load_alike {put : State → Byte → State} (hput : PutAlike R put) (m : Mode) :
    AnswerAlike R (load put m s) (load put m t) := by
  dsimp only [load]
  obtain ⟨hv, h1⟩ := readOperand_alike hR h m
  rw [hv]
  exact .next (setNZ_alike hR (hput _ _ h1 _) _)

theorem store_alike {v v' : Byte} (hv : v' = v) (m : Mode) : AnswerAlike R (store v m s) (store v' m t) := by
  dsimp only [store]
  obtain ⟨hloc, h1⟩ := resolve_alike hR h m
  rw [hloc, hv]
  exact .next (opWrite_alike hR h1 _ v)

theorem transfer_alike {put : State → Byte → State} (hput : PutAlike R put)
    {v v' : Byte} (hv : v' = v) : AnswerAlike R (transfer put v s) (transfer put v' t) := by
  rw [hv]
  exact .next (setNZ_alike hR (hput _ _ h v) v)

theorem alu_alike (op : Byte → Byte → Flags → AluResult) (m : Mode) : AnswerAlike R (alu op m s) (alu op m t) := by
  dsimp only [alu]
  obtain ⟨hv, h1⟩ := readOperand_alike hR h m
  rw [hv, alike_a hR h1, alike_flags hR h1]
  exact .next (setFlags_alike hR (hR.set h1 .a _) _)

theorem flagsOnly_alike {op op' : Byte → Flags → Flags} (hop : op' = op) (m : Mode) :
    AnswerAlike R (flagsOnly op m s) (flagsOnly op' m t) := by
  dsimp only [flagsOnly]
  obtain ⟨hv, h1⟩ := readOperand_alike hR h m
  rw [hv, alike_flags hR h1, hop]
  exact .next (setFlags_alike hR h1 _)

theorem readModifyWrite_alike (op : Byte → Flags → AluResult) (m : Mode) :
    AnswerAlike R (readModifyWrite op m s) (readModifyWrite op m t) := by
  dsimp only [readModifyWrite]
  obtain ⟨hloc, h1⟩ := resolve_alike hR h m
  obtain ⟨hv, h2⟩ := opRead_alike hR h1 (resolve m s).1
  rw [hloc, hv, alike_flags hR h2]
  exact .next (setFlags_alike hR (opWrite_alike hR h2 _ _) _)

theorem stepRegister_alike {put : State → Byte → State} (hput : PutAlike R put)
    {r r' : AluResult} (hr : r' = r) : AnswerAlike R (stepRegister put r s) (stepRegister put r' t) := by
  rw [hr]
  exact .next (setFlags_alike hR (hput _ _ h _) _)

theorem jump_alike (m : Mode) : AnswerAlike R (jump m s) (jump m t) := by
  dsimp only [jump]
  obtain ⟨hloc, h1⟩ := resolve_alike hR h m
  rw [hloc]
  exact .next (jumpTo_alike hR h1 _)

theorem branch_alike {cond cond' : Bool} (hc : cond' = cond) (d : Byte) :
    AnswerAlike R (branch cond d s) (branch cond' d t) := by
  rw [branch_eq, branch_eq, hc, alike_pc hR h]
  cases cond
  · exact .next h
  · exact .next (hR.set h .pc _)

theorem writeField_alike (p : CpuField) (w : p.Content) : AnswerAlike R (.next (p.write s w)) (.next (p.write t w)) :=
  .next (hR.set h p w)

theorem jsr_alike (a : Word) : AnswerAlike R (execJsr a s) (execJsr a t) := by
  rw [execJsr_eq, execJsr_eq, alike_pc hR h]
  exact .next (hR.set (pushWord_alike hR h _) .pc a)

theorem rts_alike : AnswerAlike R (execRts s) (execRts t) := by
  dsimp only [execRts]
  obtain ⟨hw, h1⟩ := pullWord_alike hR h
  rw [hw]
  exact .next (hR.set h1 .pc _)

theorem pla_alike : AnswerAlike R (execPla s) (execPla t) := by
  dsimp only [execPla]
  obtain ⟨hv, h1⟩ := pull_alike hR h
  rw [hv]
  exact .next (setNZ_alike hR (hR.set h1 .a _) _)

theorem plp_alike : AnswerAlike R (execPlp s) (execPlp t) := by
  dsimp only [execPlp]
  obtain ⟨hv, h1⟩ := pull_alike hR h
  rw [hv]
  exact .next (setFlags_alike hR h1 _)

theorem brk_alike : AnswerAlike R (execBrk s) (execBrk t) := by
  unfold execBrk
  rw [alike_pc hR h]
  exact .next (irq_alike hR (hR.set h .pc _) true)

/-- Every instruction answers alike in related states. -/
theorem exec_alike (i : Instr) : AnswerAlike R (exec i s) (exec i t) := by
  have ha := alike_a hR h
  have hx := alike_x hR h
  have hy := alike_y hR h
  have hf := alike_flags hR h
  cases hm : i.mnemonic with
  | lda => rw [exec_lda i s hm, exec_lda i t hm]; exact load_alike hR h (putAlike_setA hR) _
  | ldx => rw [exec_ldx i s hm, exec_ldx i t hm]; exact load_alike hR h (putAlike_setX hR) _
  | ldy => rw [exec_ldy i s hm, exec_ldy i t hm]; exact load_alike hR h (putAlike_setY hR) _
  | sta => rw [exec_sta i s hm, exec_sta i t hm]; exact store_alike hR h ha _
  | stx => rw [exec_stx i s hm, exec_stx i t hm]; exact store_alike hR h hx _
  | sty => rw [exec_sty i s hm, exec_sty i t hm]; exact store_alike hR h hy _
  | adc => rw [exec_adc i s hm, exec_adc i t hm]; exact alu_alike hR h _ _
  | sbc => rw [exec_sbc i s hm, exec_sbc i t hm]; exact alu_alike hR h _ _
  | and => rw [exec_and i s hm, exec_and i t hm]; exact alu_alike hR h _ _
  | ora => rw [exec_ora i s hm, exec_ora i t hm]; exact alu_alike hR h _ _
  | eor => rw [exec_eor i s hm, exec_eor i t hm]; exact alu_alike hR h _ _
  | cmp => rw [exec_cmp i s hm, exec_cmp i t hm]; exact flagsOnly_alike hR h (congrArg compareFlags ha) _
  | cpx => rw [exec_cpx i s hm, exec_cpx i t hm]; exact flagsOnly_alike hR h (congrArg compareFlags hx) _
  | cpy => rw [exec_cpy i s hm, exec_cpy i t hm]; exact flagsOnly_alike hR h (congrArg compareFlags hy) _
  | bit => rw [exec_bit i s hm, exec_bit i t hm]; exact flagsOnly_alike hR h (congrArg bitFlags ha) _
  | asl => rw [exec_asl i s hm, exec_asl i t hm]; exact readModifyWrite_alike hR h _ _
  | lsr => rw [exec_lsr i s hm, exec_lsr i t hm]; exact readModifyWrite_alike hR h _ _
  | rol => rw [exec_rol i s hm, exec_rol i t hm]; exact readModifyWrite_alike hR h _ _
  | ror => rw [exec_ror i s hm, exec_ror i t hm]; exact readModifyWrite_alike hR h _ _
  | inc => rw [exec_inc i s hm, exec_inc i t hm]; exact readModifyWrite_alike hR h _ _
  | dec => rw [exec_dec i s hm, exec_dec i t hm]; exact readModifyWrite_alike hR h _ _
  | tax => obtain rfl := eq_tax i hm; exact transfer_alike hR h (putAlike_setX hR) ha
  | tay => obtain rfl := eq_tay i hm; exact transfer_alike hR h (putAlike_setY hR) ha
  | txa => obtain rfl := eq_txa i hm; exact transfer_alike hR h (putAlike_setA hR) hx
  | tya => obtain rfl := eq_tya i hm; exact transfer_alike hR h (putAlike_setA hR) hy
  | tsx => obtain rfl := eq_tsx i hm; exact transfer_alike hR h (putAlike_setX hR) (alike_sp hR h)
  | txs =>
    obtain rfl := eq_txs i hm
    show AnswerAlike R (.next (s.setSp s.x)) (.next (t.setSp t.x))
    rw [hx]; exact writeField_alike hR h .sp _
  | inx =>
    obtain rfl := eq_inx i hm
    exact stepRegister_alike hR h (putAlike_setX hR) (congrArg₂ increment hx hf)
  | iny =>
    obtain rfl := eq_iny i hm
    exact stepRegister_alike hR h (putAlike_setY hR) (congrArg₂ increment hy hf)
  | dex =>
    obtain rfl := eq_dex i hm
    exact stepRegister_alike hR h (putAlike_setX hR) (congrArg₂ decrement hx hf)
  | dey =>
    obtain rfl := eq_dey i hm
    exact stepRegister_alike hR h (putAlike_setY hR) (congrArg₂ decrement hy hf)
  | bcc => obtain ⟨d, rfl⟩ := eq_bcc i hm; exact branch_alike hR h (congrArg (fun f => !f.c) hf) d
  | bcs => obtain ⟨d, rfl⟩ := eq_bcs i hm; exact branch_alike hR h (congrArg Flags.c hf) d
  | beq => obtain ⟨d, rfl⟩ := eq_beq i hm; exact branch_alike hR h (congrArg Flags.z hf) d
  | bne => obtain ⟨d, rfl⟩ := eq_bne i hm; exact branch_alike hR h (congrArg (fun f => !f.z) hf) d
  | bmi => obtain ⟨d, rfl⟩ := eq_bmi i hm; exact branch_alike hR h (congrArg Flags.n hf) d
  | bpl => obtain ⟨d, rfl⟩ := eq_bpl i hm; exact branch_alike hR h (congrArg (fun f => !f.n) hf) d
  | bvc => obtain ⟨d, rfl⟩ := eq_bvc i hm; exact branch_alike hR h (congrArg (fun f => !f.v) hf) d
  | bvs => obtain ⟨d, rfl⟩ := eq_bvs i hm; exact branch_alike hR h (congrArg Flags.v hf) d
  | jmp => rw [exec_jmp i s hm, exec_jmp i t hm]; exact jump_alike hR h _
  | jsr => obtain ⟨a, rfl⟩ := eq_jsr i hm; exact jsr_alike hR h a
  | rts => obtain rfl := eq_rts i hm; exact rts_alike hR h
  | pha =>
    obtain rfl := eq_pha i hm
    show AnswerAlike R (.next (push s.a s)) (.next (push t.a t))
    rw [ha]; exact .next (push_alike hR h _)
  | php =>
    obtain rfl := eq_php i hm
    show AnswerAlike R (.next (push (statusByte s.flags ||| breakBit) s))
      (.next (push (statusByte t.flags ||| breakBit) t))
    rw [hf]; exact .next (push_alike hR h _)
  | pla => obtain rfl := eq_pla i hm; exact pla_alike hR h
  | plp => obtain rfl := eq_plp i hm; exact plp_alike hR h
  | clc => obtain rfl := eq_clc i hm; exact writeField_alike hR h .c false
  | sec => obtain rfl := eq_sec i hm; exact writeField_alike hR h .c true
  | cli => obtain rfl := eq_cli i hm; exact writeField_alike hR h .i false
  | sei => obtain rfl := eq_sei i hm; exact writeField_alike hR h .i true
  | cld => obtain rfl := eq_cld i hm; exact writeField_alike hR h .d false
  | sed => obtain rfl := eq_sed i hm; exact writeField_alike hR h .d true
  | clv => obtain rfl := eq_clv i hm; exact writeField_alike hR h .v false
  | nop => obtain rfl := eq_nop i hm; exact .next h
  | brk => obtain rfl := eq_brk i hm; exact brk_alike hR h
  | rti => obtain rfl := eq_rti i hm; exact .next (returnFromInterrupt_alike hR h)

/-! The step. -/

theorem fetchInstr_alike : FetchedAlike R (fetchInstr s) (fetchInstr t) := by
  obtain ⟨hop, h1⟩ := fetch8_alike hR h
  obtain ⟨hd, h2⟩ := fetch8_alike hR h1
  obtain ⟨hh, h3⟩ := fetch8_alike hR h2
  dsimp only [fetchInstr]
  rw [hop]
  cases findRow (fetch8 s).1 with
  | none => exact .undefinedOpcode _ h1
  | some row =>
    cases hf : row.form with
    | f1 i => simp only [hf]; exact .instr i h1
    | f2 mk => simp only [hf, hd]; exact .instr _ h2
    | f3 mk => simp only [hf, hd, hh]; exact .instr _ h3

theorem runInstruction_alike : AnswerAlike R (runInstruction s) (runInstruction t) := by
  have hfetch := fetchInstr_alike hR h
  unfold runInstruction
  rw [alike_pc hR h]
  generalize fetchInstr s = x at hfetch ⊢
  generalize fetchInstr t = y at hfetch ⊢
  cases hfetch with
  | undefinedOpcode op h1 => exact .next (hR.halt h1 op _)
  | @instr s1 t1 i h1 =>
    have hexec := exec_alike hR h1 i
    show AnswerAlike R (afterExec i (exec i s1)) (afterExec i (exec i t1))
    generalize exec i s1 = x at hexec ⊢
    generalize exec i t1 = y at hexec ⊢
    cases hexec with
    | next h2 => exact .next (hR.charge h2 _)
    | fault f => exact .fault f
    | refused r => exact .refused r

theorem irqGate_alike : R (irqGate s) (irqGate t) := by
  unfold irqGate irqGateOpen
  rw [alike_flags hR h, hR.irqPend h]
  split
  · exact irq_alike hR h false
  · exact h

/-- A step answers alike in related states. -/
theorem step_alike : AnswerAlike R (step s) (step t) := by
  show AnswerAlike R (engineStep s) (engineStep t)
  unfold engineStep
  rw [hR.params h, hR.halted h]
  split
  · exact .refused _
  · split
    · exact .next h
    · exact runInstruction_alike hR (irqGate_alike hR h)

end

end Sys2Proof.Machine
end

section
/-! The access flags (R47, R90) are among what a step does not read. -/

namespace Sys2Proof.Machine

/-- `t` is `s` but for the access flags. -/
def SameButAccess (s t : State) : Prop := ∃ m, t = s.setAcc m

theorem regWrite_setAcc (s : State) (m : Cells 2) (r v : Byte) :
    regWrite (s.setAcc m) r v = (regWrite s r v).setAcc m := by
  unfold regWrite
  rw [State.setAcc_params]
  split
  · rfl
  · split <;> rfl

theorem writeCell_setAcc (s : State) (m : Cells 2) (a : Word) (v : Byte) :
    writeCell (s.setAcc m) a v = (writeCell s a v).setAcc m := by
  unfold writeCell
  rw [decodeAddr_setAcc]
  cases decodeAddr s a with
  | reg r => exact regWrite_setAcc s m r v
  | _ => rfl

/-- A bus write is the store and the write flag, in either order (R63). -/
theorem busWrite_eq_writeCell (s : State) (a : Word) (v : Byte) : busWrite s a v =
    (writeCell s a v).setAcc (Cells.set s.acc a.toNat (Cells.get s.acc a.toNat ||| 2)) := writeCell_setAcc s _ a v

theorem sameButAccess_busRead (s : State) (m : Cells 2) (a : Word) :
    SameButAccess (busRead s a).2 (busRead (s.setAcc m) a).2 := by
  rw [busRead_snd, busRead_snd]
  exact ⟨_, rfl⟩

theorem sameButAccess_busWrite (s : State) (m : Cells 2) (a : Word) (v : Byte) :
    SameButAccess (busWrite s a v) (busWrite (s.setAcc m) a v) := by
  rw [busWrite_eq_writeCell, busWrite_eq_writeCell, writeCell_setAcc]
  exact ⟨_, rfl⟩

/-- The CPU cannot tell states apart that differ in access flags, and every primitive operation keeps that difference. -/
theorem indistinguishable_sameButAccess : Indistinguishable SameButAccess where
  field := by rintro s _ ⟨m, rfl⟩ p; cases p <;> rfl
  peek := by rintro s _ ⟨m, rfl⟩ a; rfl
  irqPend := by rintro s _ ⟨m, rfl⟩; rfl
  halted := by rintro s _ ⟨m, rfl⟩; rfl
  params := by rintro s _ ⟨m, rfl⟩; rfl
  read := by rintro s _ ⟨m, rfl⟩ a; exact sameButAccess_busRead s m a
  write := by rintro s _ ⟨m, rfl⟩ a v; exact sameButAccess_busWrite s m a v
  set := by rintro s _ ⟨m, rfl⟩ p w; cases p <;> exact ⟨m, rfl⟩
  charge := by rintro s _ ⟨m, rfl⟩ k; exact ⟨m, rfl⟩
  halt := by rintro s _ ⟨m, rfl⟩ op a; exact ⟨m, rfl⟩

/-- Settles O12: a step keeps every difference that the CPU cannot tell. -/
theorem stepIgnoresAccessFlags : Obligations.StepIgnoresAccessFlags := by
  intro s t m hstep
  have halike := step_alike indistinguishable_sameButAccess (s := s) ⟨m, rfl⟩
  rw [hstep] at halike
  generalize step (s.setAcc m) = x at halike ⊢
  cases halike with
  | next h =>
    obtain ⟨m', rfl⟩ := h
    exact ⟨m', rfl⟩

end Sys2Proof.Machine
end

section
/-! The windows of the address map (R64, R65): what the decoder answers in each, and what a read shows there. -/

namespace Sys2Proof.Machine

theorem decodeAddr_disp {s : State} {a : Word} (h : 0x1000 ≤ a.toNat) (h' : a.toNat ≤ 0x2FFF) :
    decodeAddr s a = .disp ((a.toNat - 0x1000) % Config.dispSize) := by
  unfold decodeAddr
  dsimp only
  rw [if_neg (by omega), if_pos h']

/-- The banked window (R70). -/
theorem decodeAddr_banked {s : State} {a : Word} (h : 0x4000 ≤ a.toNat) (h' : a.toNat ≤ 0xBFFF) :
    decodeAddr s a = .rom (Config.bankWindow * bank s + (a.toNat - 0x4000)) := by
  unfold decodeAddr
  dsimp only
  rw [if_neg (by omega), if_neg (by omega), if_neg (by omega), if_pos h']

/-- The static window (R73). -/
theorem decodeAddr_static {s : State} {a : Word} (h : 0xC000 ≤ a.toNat) (h' : a.toNat ≤ 0xFFFD) :
    decodeAddr s a = .rom (a.toNat - 0xC000) := by
  unfold decodeAddr
  dsimp only
  rw [if_neg (by omega), if_neg (by omega), if_neg (by omega), if_neg (by omega), if_pos h']

/-- From 0x4000 up there is ROM and, at the top, the priority table (R64). -/
theorem decodeAddr_high {s : State} {a : Word} (h : 0x4000 ≤ a.toNat) :
    (∃ off, decodeAddr s a = .rom off) ∨ decodeAddr s a = .vectorLow ∨ decodeAddr s a = .vectorHigh := by
  unfold decodeAddr
  dsimp only
  rw [if_neg (by omega), if_neg (by omega), if_neg (by omega)]
  split
  · exact .inl ⟨_, rfl⟩
  · split
    · exact .inl ⟨_, rfl⟩
    · split
      · exact .inr (.inl rfl)
      · exact .inr (.inr rfl)

/-- Addresses whose decoding the bank does not reach. -/
theorem decodeAddr_eq_of_not_banked (s t : State) {a : Word} (h : a.toNat < 0x4000 ∨ 0xBFFF < a.toNat) :
    decodeAddr t a = decodeAddr s a := by
  unfold decodeAddr
  dsimp only
  by_cases hb : a.toNat ≤ 0xBFFF
  · have : a.toNat ≤ 0x3FFF := by omega
    simp only [this, ↓reduceIte]
  · simp only [hb, ↓reduceIte]

theorem peek_ram {s : State} {a : Word} {off : Nat} (h : decodeAddr s a = .ram off) : peek s a = s.ram.get off := by
  unfold peek; rw [h]

theorem peek_disp {s : State} {a : Word} {off : Nat} (h : decodeAddr s a = .disp off) : peek s a = s.disp.get off := by
  unfold peek; rw [h]

theorem peek_reg {s : State} {a : Word} {r : Byte} (h : decodeAddr s a = .reg r) : peek s a = regRead s r := by
  unfold peek; rw [h]

theorem peek_rom {s : State} {a : Word} {off : Nat} (h : decodeAddr s a = .rom off) : peek s a = imageByte s off := by
  unfold peek; rw [h]

/-- A read shows what the decoder's target holds, whatever address it came by (R78). -/
theorem peek_eq_of_decodeAddr {s : State} {a b : Word} (h : decodeAddr s a = decodeAddr s b) : peek s a = peek s b := by
  unfold peek; rw [h]

theorem imageByte_of_lt {s : State} {off : Nat} (h : off < s.params.imageLen) :
    imageByte s off = Memory.get s.params.image off := if_pos (decide_eq_true h)

theorem imageByte_congr {s t : State} (hp : t.params = s.params) (hf : t.freeCtr = s.freeCtr) (off : Nat) :
    imageByte t off = imageByte s off := by
  unfold imageByte inImage
  rw [hp, hf]

/-- Where no byte exists, a read shows the next free byte (R72, D14). -/
theorem peek_of_not_hasByte {s : State} {a : Word} (h : hasByte s a = false) :
    peek s a = Config.freeByte s.freeCtr := by
  unfold hasByte at h
  cases hd : decodeAddr s a with
  | rom off =>
    have hout : inImage s off = false := by simpa [hd] using h
    rw [peek_rom hd, imageByte, hout]
    rfl
  | _ => simp [hd] at h

/-- Parameters the spec accepts have the static ROM in their image (R351). -/
theorem staticRom_le_imageLen {p : Params} (h : p.valid = true) : Config.staticRom ≤ p.imageLen := by
  simp only [Params.valid, Bool.and_eq_true] at h
  obtain ⟨_, himage⟩ := h
  exact of_decide_eq_true himage

/-- A pressed key reads as 0 in its bit (R330). -/
theorem portAIn_pressed {s : State} {k : Fin 4} (h : s.keys.getLsbD k.val = false) :
    (portAIn s).getLsbD (Config.portAKeyBit k).val = false := by
  unfold portAIn
  rw [BitVec.getLsbD_and, BitVec.getLsbD_not, pressedKeys_bit _ _ h]
  simp

/-- Settles O26: window by window, what the decoder selects. -/
theorem addressMapSelectsBacking : Obligations.AddressMapSelectsBacking := by
  intro s a
  refine ⟨?ram, ?disp, ?reg, ?portA, ?key, ?banked, ?static⟩
  case ram => exact fun h => peek_ram (decodeAddr_ram h)
  case disp =>
    intro h h'
    rw [peek_disp (decodeAddr_disp h h')]
    have hmod : (a.toNat - 0x1000) % 0x200 = a.toNat % 0x200 := by omega
    exact congrArg _ hmod
  case reg => rintro h h' r rfl; exact peek_reg (decodeAddr_reg h h')
  case portA => exact fun t hk hg hr => portAIn_congr hk hg hr
  case key => exact fun k hk => portAIn_pressed hk
  case banked =>
    intro h h' hlen
    rw [peek_rom (decodeAddr_banked h h')]
    exact imageByte_of_lt hlen
  case static =>
    intro h h' hv
    have hlen := staticRom_le_imageLen hv
    unfold Config.staticRom at hlen
    rw [peek_rom (decodeAddr_static h h')]
    exact imageByte_of_lt (by omega)

end Sys2Proof.Machine
end

section
/-! Reads and writes on the bus: what each changes, by its target (R62, R63, R74 to R78, R90). -/

namespace Sys2Proof.Machine

/-- Setting one bus address's access flags leaves every other address's (R90, D15). -/
theorem accessFlags_get_set {s : State} (hs : stateWf s = true) (a b : Word) (bits : BitVec 2) :
    Cells.get (Cells.set s.acc a.toNat bits) b.toNat = if b = a then bits else Cells.get s.acc b.toNat := by
  split
  · next h => rw [h]; exact Cells_get_set_same (stateWf_acc hs)
  · next h => exact Cells_get_set_other fun e => h (BitVec.eq_of_toNat_eq e)

/-- Settles O25: a read sets its flag, and counts a free byte where it returned one. -/
theorem busReadHasNoSideEffect : Obligations.BusReadHasNoSideEffect := by
  intro s a
  have hsame := sameButReads_busRead s a
  refine ⟨hsame, sameBytes_of_sameButReads hsame, fun hb => ⟨rfl, ?_⟩, fun hb => ⟨peek_of_not_hasByte hb, ?_⟩,
    fun hs b => ?_⟩
  · rw [busRead_snd, hb]; rfl
  · rw [busRead_snd, hb]; rfl
  · rw [busRead_snd]; exact accessFlags_get_set hs a b _

/-! Writes from 0x4000 up are discarded (R75). -/

theorem busWrite_high {s : State} {a : Word} (v : Byte) (h : 0x4000 ≤ a.toNat) :
    busWrite s a v = markAccess 2 s a := by
  obtain ⟨off, hd⟩ | hd := decodeAddr_high (s := s) h
  · exact busWrite_rom v hd
  · exact busWrite_vector v hd

/-- Settles O30: the write flag is all that such a write sets. -/
theorem romWritesAreDiscarded : Obligations.RomWritesAreDiscarded := fun _ _ v h => busWrite_high v h

/-- Settles O19: the two bytes and the word of the priority table, and no store. -/
theorem topAddressesShowPriorityTable : Obligations.TopAddressesShowPriorityTable := by
  refine fun s => ⟨rfl, rfl, busRead16_irqVector s, ?_⟩
  rintro a v (rfl | rfl)
  · exact busWrite_high v (by decide)
  · exact busWrite_high v (by decide)

/-! The launch parameters' register indices are distinct (R69, D11). -/

theorem nodup_of_allDistinct {α : Type} [DecidableEq α] {l : List α} (h : allDistinct l = true) : l.Nodup := by
  induction l with
  | nil => exact List.nodup_nil
  | cons x xs ih =>
    simp only [allDistinct, Bool.and_eq_true, Bool.not_eq_true', List.contains_eq_mem, decide_eq_false_iff_not] at h
    obtain ⟨hx, hxs⟩ := h
    exact List.nodup_cons.2 ⟨hx, ih hxs⟩

theorem registerIndices_nodup {p : Params} (h : p.valid = true) : p.registerIndices.Nodup := by
  simp only [Params.valid, Bool.and_eq_true] at h
  obtain ⟨⟨⟨hreg, _⟩, _⟩, _⟩ := h
  exact nodup_of_allDistinct hreg

/-- The bank register is none of the registers with a behaviour of their own (R69). -/
theorem regBank_ne {p : Params} (h : p.valid = true) : p.regBank ≠ p.regIrqPendHi ∧ p.regBank ≠ p.regIrqPendLo ∧
    p.regBank ≠ p.regPaData ∧ p.regBank ≠ p.regPbData ∧ p.regBank ≠ p.regFF := by
  have hn := registerIndices_nodup h
  simp only [Params.registerIndices, List.nodup_cons, List.mem_cons, not_or] at hn
  tauto

/-- No pending byte is a port-B register. -/
theorem regIrqPend_ne_portB {p : Params} (h : p.valid = true) {r : Byte} (hr : r = p.regPbDir ∨ r = p.regPbData) :
    ¬(r = p.regIrqPendHi ∨ r = p.regIrqPendLo) := by
  have hn := registerIndices_nodup h
  simp only [Params.registerIndices, List.nodup_cons, List.mem_cons, not_or] at hn
  rcases hr with rfl | rfl <;> tauto

/-! A register write (R69). -/

/-- What a write of `v` stores in register `r`: the pending bytes are write-1-to-clear (R37, R69). -/
def storedByte (s : State) (r v : Byte) : Byte :=
  if r = s.params.regIrqPendHi ∨ r = s.params.regIrqPendLo then regByte s r &&& ~~~ v else v

/-- The register block after a write, whatever its side effect. -/
theorem regWrite_reg (s : State) (r v : Byte) : (regWrite s r v).reg = (storeReg s r (storedByte s r v)).reg := by
  unfold regWrite storedByte
  split
  · rfl
  · split <;> rfl

theorem regByte_regWrite_same {s : State} (r v : Byte) (hs : stateWf s = true) :
    regByte (regWrite s r v) r = storedByte s r v := by
  unfold regByte
  rw [regWrite_reg]
  exact regByte_storeReg_same r _ hs

theorem regByte_regWrite_other (s : State) {r q : Byte} (v : Byte) (h : q ≠ r) :
    regByte (regWrite s r v) q = regByte s q := by
  unfold regByte
  rw [regWrite_reg]
  exact regByte_storeReg_other s _ h

/-- The EEPROM sees a write of the two port-B registers (R303). -/
theorem regWrite_ee_portB {s : State} {r : Byte} (v : Byte) (hs : stateWf s = true)
    (hr : r = s.params.regPbDir ∨ r = s.params.regPbData) :
    (regWrite s r v).ee = eeUpdate s.params.eeBits
      ((portBLines (regWrite s r v)).getLsbD s.params.pbPowerBit.val)
      ((portBLines (regWrite s r v)).getLsbD s.params.pbClockBit.val)
      ((portBLines (regWrite s r v)).getLsbD s.params.pbDataBit.val) s.ee := by
  have hw : regWrite s r v = portBUpdate (storeReg s r v) := by
    rw [regWrite, if_neg (regIrqPend_ne_portB (stateWf_valid hs) hr), if_pos hr]
  rw [hw]
  rfl

/-- Every other register's write leaves it alone (R303). -/
theorem regWrite_ee_other (s : State) {r : Byte} (v : Byte) (hd : r ≠ s.params.regPbDir) (hp : r ≠ s.params.regPbData) :
    (regWrite s r v).ee = s.ee := by
  unfold regWrite
  rw [if_neg (not_or.2 ⟨hd, hp⟩)]
  split <;> rfl

theorem regWrite_eq_setReg_setEe (s : State) (r v : Byte) :
    regWrite s r v = (s.setReg (regWrite s r v).reg).setEe (regWrite s r v).ee := by
  obtain ⟨m, e, h⟩ := regWrite_frame s r v
  rw [h]
  rfl

end Sys2Proof.Machine
end

section
/-! Reads after writes (R69, R77, R78): the same cell through its own address and through its mirrors. -/

namespace Sys2Proof.Machine

theorem regWrite_params (s : State) (r v : Byte) : (regWrite s r v).params = s.params := by
  rw [regWrite_eq_setReg_setEe]; rfl
theorem regWrite_ram (s : State) (r v : Byte) : (regWrite s r v).ram = s.ram := by
  rw [regWrite_eq_setReg_setEe]; rfl
theorem regWrite_disp (s : State) (r v : Byte) : (regWrite s r v).disp = s.disp := by
  rw [regWrite_eq_setReg_setEe]; rfl
theorem regWrite_freeCtr (s : State) (r v : Byte) : (regWrite s r v).freeCtr = s.freeCtr := by
  rw [regWrite_eq_setReg_setEe]; rfl

/-- A bus write that selects a register is the register write and the write flag, in either order. -/
theorem busWrite_reg_setAcc {s : State} {a : Word} {r : Byte} (v : Byte) (h : decodeAddr s a = .reg r) :
    busWrite s a v =
      (regWrite s r v).setAcc (Cells.set s.acc a.toNat (Cells.get s.acc a.toNat ||| 2)) := by
  rw [busWrite_reg v h]
  exact regWrite_setAcc s _ r v

/-- Settles O31: the register write, and the same through the bus. -/
theorem registerWriteEffects : Obligations.RegisterWriteEffects := by
  intro s r v hs
  refine ⟨regByte_regWrite_same r v hs, fun r' hr' => regByte_regWrite_other s v hr', regWrite_ee_portB v hs,
    regWrite_ee_other s v, regWrite_eq_setReg_setEe s r v, ?_⟩
  rintro a h h' rfl
  rw [busWrite_reg_setAcc v (decodeAddr_reg h h')]
  refine ⟨regByte_regWrite_same _ v hs, fun r' hr' => regByte_regWrite_other s v hr', ?_, regWrite_ram s _ v,
    regWrite_disp s _ v⟩
  split
  · next hr => exact regWrite_ee_portB v hs hr
  · next hr =>
    obtain ⟨hd, hp⟩ := not_or.1 hr
    exact regWrite_ee_other s v hd hp

/-! The two RAMs (R66, R67, R78): the byte stored is read back through every address that shows it. -/

theorem peek_busWrite_ram_same {s : State} {a b : Word} {off : Nat} (v : Byte) (hs : stateWf s = true)
    (ha : decodeAddr s a = .ram off) (hb : decodeAddr s b = .ram off) : peek (busWrite s a v) b = v := by
  obtain ⟨_, _, _, hram, _⟩ := (stateWf_iff s).1 hs
  rw [busWrite_ram v ha]
  exact (peek_ram (s := (markAccess 2 s a).setRam _) hb).trans (Memory_get_set_same hram)

theorem peek_busWrite_disp_same {s : State} {a b : Word} {off : Nat} (v : Byte) (hs : stateWf s = true)
    (ha : decodeAddr s a = .disp off) (hb : decodeAddr s b = .disp off) : peek (busWrite s a v) b = v := by
  obtain ⟨_, _, _, _, hdisp, _⟩ := (stateWf_iff s).1 hs
  rw [busWrite_disp v ha]
  exact (peek_disp (s := (markAccess 2 s a).setDisp _) hb).trans (Memory_get_set_same hdisp)

/-- Settles O27: the two RAMs, the registers by their read column, and ROM, where nothing is stored. -/
theorem readAfterWriteReturnsValue : Obligations.ReadAfterWriteReturnsValue := by
  intro s a v hs
  refine ⟨fun h => ?_, ?_, fun h b => ?_⟩
  · by_cases hram : a.toNat ≤ 0x0FFF
    · exact peek_busWrite_ram_same v hs (decodeAddr_ram hram) (decodeAddr_ram hram)
    · have hdisp := decodeAddr_disp (s := s) (show 0x1000 ≤ a.toNat by omega) h
      exact peek_busWrite_disp_same v hs hdisp hdisp
  · rintro h h' r rfl
    have hbyte : regByte (busWrite s a v) (BitVec.ofNat 8 a.toNat) = storedByte s (BitVec.ofNat 8 a.toNat) v := by
      rw [busWrite_reg_setAcc v (decodeAddr_reg h h')]
      exact regByte_regWrite_same _ v hs
    rw [peek_reg (decodeAddr_reg h h'), regRead, busWrite_params_eq, hbyte]
    rfl
  · rw [busWrite_high v h]; rfl

/-- Settles O28: addresses of one cell decode to one target, and the effect is the target's. -/
theorem mirrorsShareStorage : Obligations.MirrorsShareStorage := by
  intro s a b v hs
  refine ⟨fun ha hb hab => ?_, fun ha ha' hb hb' hab => ?_, fun ha ha' hb hb' hab => ?_⟩
  · exact peek_busWrite_ram_same v hs (decodeAddr_ram ha) ((decodeAddr_ram hb).trans (congrArg _ hab.symm))
  · exact peek_busWrite_disp_same v hs (decodeAddr_disp ha ha') ((decodeAddr_disp hb hb').trans (congrArg _ hab.symm))
  · have hreg : BitVec.ofNat 8 a.toNat = BitVec.ofNat 8 b.toNat := BitVec.eq_of_toNat_eq (by simpa using hab)
    have hda : decodeAddr s a = .reg (BitVec.ofNat 8 b.toNat) := by rw [decodeAddr_reg ha ha', hreg]
    have hdb := decodeAddr_reg (s := s) hb hb'
    refine ⟨peek_eq_of_decodeAddr (hda.trans hdb.symm), ?_⟩
    rw [busWrite_reg_setAcc v hda, busWrite_reg_setAcc v hdb]
    rfl

/-- Settles O29: the bank register is plain storage, and the decoder reads it back. -/
theorem bankRegisterSelectsRomBank : Obligations.BankRegisterSelectsRomBank := by
  intro s a b v hs h h' ha
  obtain ⟨hhi, hlo, hpa, hpb, hff⟩ := regBank_ne (stateWf_valid hs)
  have hbyte : regByte (busWrite s a v) s.params.regBank = v := by
    rw [busWrite_reg_setAcc v (decodeAddr_reg h h'), ha]
    exact (regByte_regWrite_same _ v hs).trans (if_neg (not_or.2 ⟨hhi, hlo⟩))
  refine ⟨hbyte, ?_, fun hb hb' hlen => ?_⟩
  · rw [peek_reg (decodeAddr_reg h h'), ha, regRead, busWrite_params_eq, if_neg hpb, if_neg hpa, if_neg hff, hbyte]
  · have hbank : bank (busWrite s a v) = v.toNat % 20 := by
      rw [bank, busWrite_params_eq, hbyte]; rfl
    rw [peek_rom (decodeAddr_banked hb hb'), hbank]
    have himage := imageByte_of_lt (s := busWrite s a v) (by rw [busWrite_params_eq]; exact hlen)
    rw [busWrite_params_eq] at himage
    exact himage

end Sys2Proof.Machine
end

section
/-! The frame of a bus write (R63, R77): what reads the same where the store does not reach. -/

namespace Sys2Proof.Machine

/-! A store to one of the two RAMs. -/

theorem peek_setRam_of_get_eq {s : State} {b : Word} {m : Memory}
    (h : ∀ off, decodeAddr s b = .ram off → m.get off = s.ram.get off) : peek (s.setRam m) b = peek s b := by
  have hdec : decodeAddr (s.setRam m) b = decodeAddr s b := rfl
  unfold peek
  rw [hdec]
  cases hd : decodeAddr s b with
  | ram off => exact h off hd
  | _ => rfl

theorem peek_setDisp_of_get_eq {s : State} {b : Word} {m : Memory}
    (h : ∀ off, decodeAddr s b = .disp off → m.get off = s.disp.get off) : peek (s.setDisp m) b = peek s b := by
  have hdec : decodeAddr (s.setDisp m) b = decodeAddr s b := rfl
  unfold peek
  rw [hdec]
  cases hd : decodeAddr s b with
  | disp off => exact h off hd
  | _ => rfl

/-! A register write. -/

/-- Another register than `r` reads as before, unless it shows what `r` feeds (R69, R304, R330). -/
theorem regRead_regWrite_other (s : State) {r q : Byte} (v : Byte) (hq : q ≠ r) (hpa : q ≠ s.params.regPaData)
    (hpb : q = s.params.regPbData → r ≠ s.params.regPbDir) : regRead (regWrite s r v) q = regRead s q := by
  unfold regRead
  rw [regWrite_params, regByte_regWrite_other s v hq, if_neg hpa, if_neg hpa]
  split
  · next h =>
    have hdir : s.params.regPbDir ≠ r := (hpb h).symm
    have hdata : s.params.regPbData ≠ r := h ▸ hq
    unfold portBPins
    rw [regWrite_params, regByte_regWrite_other s v hdir, regByte_regWrite_other s v hdata,
      regWrite_ee_other s v hdir.symm hdata.symm]
  · rfl

/-- The banked window moves with the bank register alone (R70). -/
theorem decodeAddr_regWrite {s : State} {r : Byte} {b : Word} (v : Byte)
    (h : 0x4000 ≤ b.toNat → b.toNat ≤ 0xBFFF → r ≠ s.params.regBank) :
    decodeAddr (regWrite s r v) b = decodeAddr s b := by
  by_cases hw : 0x4000 ≤ b.toNat ∧ b.toNat ≤ 0xBFFF
  · obtain ⟨hlo, hhi⟩ := hw
    have hbank : bank (regWrite s r v) = bank s := by
      unfold bank
      rw [regWrite_params, regByte_regWrite_other s v (h hlo hhi).symm]
    rw [decodeAddr_banked hlo hhi, decodeAddr_banked hlo hhi, hbank]
  · exact decodeAddr_eq_of_not_banked s _ (by omega)

theorem irqPend_regWrite_other (s : State) {r : Byte} (v : Byte)
    (h : ¬(r = s.params.regIrqPendHi ∨ r = s.params.regIrqPendLo)) : irqPend (regWrite s r v) = irqPend s := by
  obtain ⟨hhi, hlo⟩ : r ≠ s.params.regIrqPendHi ∧ r ≠ s.params.regIrqPendLo := not_or.1 h
  unfold irqPend
  rw [regWrite_params, regByte_regWrite_other s v hhi.symm, regByte_regWrite_other s v hlo.symm]

/-- A store to a register reaches the banked window where the register is the bank register (R70). -/
theorem storeReaches_banked {s : State} {a b : Word} {r : Byte} (ha : decodeAddr s a = .reg r) (hlo : 0x4000 ≤ b.toNat)
    (hhi : b.toNat ≤ 0xBFFF) (hr : r = s.params.regBank) : StoreReaches s a b := by
  unfold StoreReaches
  rw [ha, decodeAddr_banked hlo hhi]
  exact ⟨hr, hhi⟩

theorem peek_regWrite_other {s : State} {a b : Word} {r : Byte} (v : Byte) (ha : decodeAddr s a = .reg r)
    (hn : ¬ StoreReaches s a b) : peek (regWrite s r v) b = peek s b := by
  have hdec : decodeAddr (regWrite s r v) b = decodeAddr s b :=
    decodeAddr_regWrite v fun hlo hhi hr => hn (storeReaches_banked ha hlo hhi hr)
  unfold StoreReaches at hn
  rw [ha] at hn
  unfold peek
  rw [hdec]
  cases hd : decodeAddr s b with
  | ram off => simp only [regWrite_ram]
  | disp off => simp only [regWrite_disp]
  | rom off => exact imageByte_congr (regWrite_params s r v) (regWrite_freeCtr s r v) off
  | reg q =>
    rw [hd] at hn
    obtain ⟨hq, hpa, hpb⟩ : q ≠ r ∧ q ≠ s.params.regPaData ∧
        ¬(q = s.params.regPbData ∧ (r = s.params.regPbDir ∨ r = s.params.regPbData)) := by simpa [not_or] using hn
    exact regRead_regWrite_other s v hq hpa fun h hr => hpb ⟨h, .inl hr⟩
  | vectorLow =>
    rw [hd] at hn
    simp only [regWrite_params, irqPend_regWrite_other s v hn]
  | vectorHigh =>
    rw [hd] at hn
    simp only [regWrite_params, irqPend_regWrite_other s v hn]

/-! Any bus write. -/

theorem peek_busWrite_other {s : State} {a b : Word} (v : Byte) (hn : ¬ StoreReaches s a b) :
    peek (busWrite s a v) b = peek s b := by
  cases ha : decodeAddr s a with
  | ram off =>
    rw [busWrite_ram v ha]
    refine (peek_setRam_of_get_eq fun off' hb => Memory_get_set_other ?_).trans rfl
    rintro rfl
    exact hn (by unfold StoreReaches; rw [ha, show decodeAddr s b = _ from hb])
  | disp off =>
    rw [busWrite_disp v ha]
    refine (peek_setDisp_of_get_eq fun off' hb => Memory_get_set_other ?_).trans rfl
    rintro rfl
    exact hn (by unfold StoreReaches; rw [ha, show decodeAddr s b = _ from hb])
  | reg r => rw [busWrite_reg_setAcc v ha, peek_setAcc, peek_regWrite_other v ha hn]
  | rom off => rw [busWrite_rom v ha]; rfl
  | vectorLow => rw [busWrite_vector v (.inl ha)]; rfl
  | vectorHigh => rw [busWrite_vector v (.inr ha)]; rfl

/-- Settles O32: the reach of the store, the fields a write may change, and its own write flag. -/
theorem busWriteFrame : Obligations.BusWriteFrame := by
  intro s a v
  refine ⟨fun b _ hn => peek_busWrite_other v hn, ?_, fun h => ?_, fun hs b => ?_⟩
  · obtain ⟨_, _, _, _, hw⟩ := busWrite_frame s a v
    rw [hw]
    rfl
  · exact busWrite_outside_window v (by unfold RegWindow; omega)
  · rw [busWrite_acc_eq]
    exact accessFlags_get_set hs a b _

end Sys2Proof.Machine
end

section
/-! Decoding and encoding agree (R100, R101, R116, R121): the opcode table read from both sides. -/

namespace Sys2Proof

/-- The operand bytes with which a format (R100) writes an instruction out: none, one, or a word's two, low byte first. -/
inductive Form.Encodes : Form → Instr → List Byte → Prop
  | f1 (i : Instr) : Encodes (.f1 i) i []
  | f2 (mk : Byte → Instr) (d : Byte) : Encodes (.f2 mk) (mk d) [d]
  | f3 (mk : Word → Instr) (a : Word) : Encodes (.f3 mk) (mk a) [loByte a, hiByte a]

/-- Decoding answers an instruction exactly on an opcode byte that has a row, followed by operand bytes of the row's
format. -/
theorem decode_ok_iff {bs rest : List Byte} {i : Instr} : decode bs = .ok i rest ↔
    ∃ op row ops, findRow op = some row ∧ row.form.Encodes i ops ∧ bs = op :: (ops ++ rest) := by
  constructor
  · intro h
    unfold decode at h
    split at h
    · cases h
    next op bs =>
    split at h
    · cases h
    next row hrow =>
    refine ⟨op, row, ?_⟩
    split at h <;> cases h
    next hform => exact ⟨[], hrow, hform ▸ .f1 i, rfl⟩
    next mk d hform => exact ⟨[d], hrow, hform ▸ .f2 mk d, rfl⟩
    next mk l h hform =>
      exact ⟨[l, h], hrow, by simpa [hform] using Form.Encodes.f3 mk (wordOf h l), rfl⟩
  · rintro ⟨op, ⟨_, cycles, form⟩, ops, hrow, henc, rfl⟩
    cases henc <;> simp [decode, hrow]

/-! The opcode table (R101, R116): its rows stand in the order of their opcodes, so each opcode byte has one row at most. -/

theorem opTable_opcodes_rising : (opTable.map Row.opcode).IsChain (· < ·) := by decide +kernel

theorem opTable_opcodes_nodup : (opTable.map Row.opcode).Nodup :=
  (List.isChain_iff_pairwise.1 opTable_opcodes_rising).imp fun h => BitVec.ne_of_lt h

theorem findRow_eq_none_iff {op : Byte} : findRow op = none ↔ op ∉ opTable.map Row.opcode := by
  simp [findRow]

theorem findRow_eq_some_iff {op : Byte} {row : Row} : findRow op = some row ↔ row ∈ opTable ∧ row.opcode = op := by
  have hfound {r : Row} (h : findRow op = some r) : r ∈ opTable ∧ r.opcode = op :=
    ⟨List.mem_of_find?_eq_some h, by simpa using List.find?_some h⟩
  refine ⟨hfound, fun ⟨hmem, hop⟩ => ?_⟩
  cases hf : findRow op with
  | none => exact absurd (hop ▸ List.mem_map_of_mem hmem) (findRow_eq_none_iff.1 hf)
  | some r =>
    obtain ⟨hmem', hop'⟩ := hfound hf
    rw [List.inj_on_of_nodup_map opTable_opcodes_nodup hmem hmem' (hop.trans hop'.symm)]

/-- The instruction type lists its constructors in the order of the table: the row at an instruction's place has its
opcode and writes it out (R116). -/
theorem opTable_getElem?_ctorIdx (i : Instr) : ∃ row, opTable[i.ctorIdx]? = some row ∧ row.opcode = i.opcode ∧
    row.form.Encodes i i.mode.operandBytes := by
  cases i <;> exact ⟨_, rfl, rfl, by constructor⟩

/-- Every instruction's opcode has a row, whose format writes the instruction out. -/
theorem findRow_opcode (i : Instr) :
    ∃ row, findRow i.opcode = some row ∧ row.form.Encodes i i.mode.operandBytes := by
  obtain ⟨row, hrow, hop, henc⟩ := opTable_getElem?_ctorIdx i
  exact ⟨row, findRow_eq_some_iff.2 ⟨List.mem_of_getElem? hrow, hop⟩, henc⟩

/-- Settles O1: the row of the instruction's opcode writes it out, and decoding reads that row. -/
theorem decodeOfEncodeIsIdentity : Obligations.DecodeOfEncodeIsIdentity := by
  intro i rest
  obtain ⟨row, hfind, henc⟩ := findRow_opcode i
  exact decode_ok_iff.2 ⟨i.opcode, row, i.mode.operandBytes, hfind, henc, rfl⟩

/-- What a row's format writes out is, after the row's opcode byte, the instruction's encoding (R116, R121). -/
theorem encode_of_mem_opTable : ∀ row ∈ opTable, ∀ i ops, row.form.Encodes i ops → encode i = row.opcode :: ops := by
  simp only [opTable, opRow0, opRow1, opRow2, opRow3, opRow4, opRow5, opRow6, opRow7, opRow8, opRow9, opRowA, opRowB,
    opRowC, opRowD, opRowE, opRowF, List.forall_mem_append, List.forall_mem_cons, List.not_mem_nil, false_imp_iff,
    implies_true, and_true]
  and_intros
  all_goals
    rintro _ _ ⟨⟩
    rfl

/-- Settles O2: the bytes decoded are a row's opcode and what its format writes out. -/
theorem encodeOfDecodeIsIdentity : Obligations.EncodeOfDecodeIsIdentity := by
  intro bs rest i h
  obtain ⟨op, row, ops, hfind, henc, rfl⟩ := decode_ok_iff.1 h
  obtain ⟨hmem, rfl⟩ := findRow_eq_some_iff.1 hfind
  rw [encode_of_mem_opTable row hmem i ops henc, List.cons_append]

/-- Settles O4: the decoder run on each word. -/
theorem writtenOutWordsDecode : Obligations.WrittenOutWordsDecode := by
  unfold Obligations.WrittenOutWordsDecode
  decide

/-! The bytes with no row (R117). -/

theorem decode_eq_undefinedOpcode_iff (op : Byte) (rest : List Byte) :
    decode (op :: rest) = .undefinedOpcode op ↔ findRow op = none := by
  cases hfind : findRow op with
  | none => simp [decode, hfind]
  | some row =>
    simp only [decode, hfind, reduceCtorEq, iff_false]
    split <;> simp

/-- A list of bytes as the number whose bit `b` says whether the byte `b` is in it: two lists are compared at all 256
bytes by one comparison of numbers. -/
def byteMask (l : List Byte) : Nat := l.foldr (fun b m => 2 ^ b.toNat ||| m) 0

theorem testBit_byteMask (l : List Byte) (op : Byte) : (byteMask l).testBit op.toNat = decide (op ∈ l) := by
  induction l with
  | nil => simp [byteMask]
  | cons b l ih =>
    have hb : (2 ^ b.toNat).testBit op.toNat = decide (op = b) := by
      simp [Nat.testBit_two_pow, BitVec.toNat_inj, eq_comm]
    simp only [byteMask, List.foldr_cons, Nat.testBit_or, List.mem_cons, Bool.decide_or] at ih ⊢
    rw [hb, ih]

/-- The opcodes of the table and the bytes R117 lists make up all 256 bytes, none in both. -/
theorem byteMask_opcodes_xor_undefinedBytes :
    byteMask (opTable.map Row.opcode) ^^^ byteMask undefinedBytes = 2 ^ 256 - 1 := by
  decide +kernel

theorem mem_undefinedBytes_iff (op : Byte) : op ∈ undefinedBytes ↔ op ∉ opTable.map Row.opcode := by
  have h := congrArg (Nat.testBit · op.toNat) byteMask_opcodes_xor_undefinedBytes
  simp only [Nat.testBit_xor, testBit_byteMask, Nat.testBit_two_pow_sub_one, op.isLt, decide_true] at h
  by_cases hop : op ∈ opTable.map Row.opcode <;> simpa [hop] using h

/-- Settles O3: a byte is rejected where it has no row, and those bytes are the listed ones; their pattern byte by
byte. -/
theorem undefinedOpcodesAreRejectedByName : Obligations.UndefinedOpcodesAreRejectedByName := by
  refine ⟨fun op rest => ?_, by decide, by decide⟩
  rw [decode_eq_undefinedOpcode_iff, findRow_eq_none_iff, mem_undefinedBytes_iff]

end Sys2Proof
end

section
/-! Where a data mode leads (R105 to R112). -/

namespace Sys2Proof.Machine

/-- Zero page indexed wraps in page 0 (R108, D5). -/
theorem zeroPageIndexed_eq (d index : Byte) :
    zeroPageIndexed d index = BitVec.ofNat 16 ((d.toNat + index.toNat) % 256) := by
  rw [zeroPageIndexed, zeroPage_eq, BitVec.toNat_add]

/-- A mode with an effective address resolves to it. -/
theorem resolve_fst {m : Mode} {s : State} {a : Word} (h : effectiveAddress m s = some a) :
    (resolve m s).1 = .mem a := by
  cases m <;> cases h
  case zp d => exact congrArg Operand.mem (zeroPage_eq d)
  case zpx d => exact congrArg Operand.mem (zeroPageIndexed_eq d s.x)
  case zpy d => exact congrArg Operand.mem (zeroPageIndexed_eq d s.y)
  case abs => rfl
  case absx b => exact congrArg Operand.mem (absIndexed_eq b s.x)
  case absy b => exact congrArg Operand.mem (absIndexed_eq b s.y)
  case indx d => exact congrArg Operand.mem (zeroPagePointer_eq (d + s.x) s)
  case indy d =>
    have hptr := zeroPagePointer_eq d s
    exact congrArg Operand.mem (hptr ▸ absIndexed_eq (zeroPagePointer d s).1 s.y)

/-- Resolving a mode with an effective address draws no free byte: its pointer lies in RAM. -/
theorem resolve_freeCtr {m : Mode} {s : State} {a : Word} (h : effectiveAddress m s = some a) :
    (resolve m s).2.freeCtr = s.freeCtr := by
  cases m with
  | ind _ => cases h
  | indx d => exact zeroPagePointer_freeCtr (d + s.x) s
  | indy d => exact zeroPagePointer_freeCtr d s
  | _ => rfl

/-- Settles O41: resolving makes reads alone, and the location of each data mode equals its rule's formula. -/
theorem addressingModesResolve : Obligations.AddressingModesResolve := by
  intro m s
  refine ⟨sameButReads_resolve m s, fun a h => ⟨resolve_fst h, resolve_freeCtr h⟩, ?_, ?_⟩
  · rintro d rfl
    rfl
  · rintro rfl
    rfl

end Sys2Proof.Machine
end

section
/-! Loads, stores and register transfers (R140 to R152): what each family does in every form. -/

namespace Sys2Proof.Machine

/-! `SetNZ` (R9): `N` is bit 7, `Z` says that the byte is 0. -/

theorem flagsNZ_eq (v : Byte) (f : Flags) : flagsNZ v f = { f with n := v.msb, z := decide (v = 0#8) } := by
  rw [BitVec.msb_eq_getLsbD_last]
  rfl

theorem setNZ_eq (v : Byte) (s : State) :
    setNZ v s = { s with flags := { s.flags with n := v.msb, z := decide (v = 0#8) } } :=
  congrArg s.setFlags (flagsNZ_eq v s.flags)

/-! What reads leave is no part of a register or a flag: writing one in two states keeps them the same but for reads. -/

theorem putAlike_sameButReads_setA : PutAlike SameButReads State.setA := fun _ _ h v => congrArg (State.setA · v) h
theorem putAlike_sameButReads_setX : PutAlike SameButReads State.setX := fun _ _ h v => congrArg (State.setX · v) h
theorem putAlike_sameButReads_setY : PutAlike SameButReads State.setY := fun _ _ h v => congrArg (State.setY · v) h

theorem sameButReads_setNZ {s t : State} (h : SameButReads s t) (v : Byte) : SameButReads (setNZ v s) (setNZ v t) :=
  congrArg (setNZ v) h

/-! Loads. -/

/-- A load reads its operand, puts it into the register and sets `N` and `Z` from it; `loaded` names that state. -/
theorem exec_load {put : State → Byte → State} (hput : PutAlike SameButReads put) {i : Instr} {s : State}
    (hm : dataMode i.mode = true) (hx : exec i s = load put i.mode s) {loaded : Byte → State}
    (hl : ∀ v, setNZ v (put s v) = loaded v) :
    ∃ (v : Byte) (t : State), OperandIs i.mode s v ∧ exec i s = .next t ∧ SameButReads (loaded v) t := by
  have hread : SameButReads s (readOperand i.mode s).2 := sameButReads_readOperand i.mode s
  refine ⟨(readOperand i.mode s).1, _, operandIs_readOperand i.mode s hm, hx, ?_⟩
  rw [← hl]
  exact sameButReads_setNZ (hput _ _ hread _) _

/-- Settles O42: the load of each register is the same shared operation, of a data mode. -/
theorem loadsPutOperandInRegister : Obligations.LoadsPutOperandInRegister := by
  intro i s h
  have hm : dataMode i.mode = true := mode_dataMode i (by rcases h with h | h | h <;> simp [h])
  rcases h with h | h | h
  · exact exec_load putAlike_sameButReads_setA hm (exec_lda i s h) fun v => by simp [h, setNZ_eq, State.setA]
  · exact exec_load putAlike_sameButReads_setX hm (exec_ldx i s h) fun v => by simp [h, setNZ_eq, State.setX]
  · exact exec_load putAlike_sameButReads_setY hm (exec_ldy i s h) fun v => by simp [h, setNZ_eq, State.setY]

/-! Stores. -/

/-- A mnemonic with memory forms alone designates an address in each of them. -/
theorem effectiveAddress_of_memoryMnemonic (i : Instr) (s : State)
    (h : i.mnemonic ∈ [Mnemonic.sta, .stx, .sty, .inc, .dec]) : ∃ a, effectiveAddress i.mode s = some a := by
  cases i <;> first | exact ⟨_, rfl⟩ | (simp [Instr.mnemonic] at h)

/-- A store resolves its mode and makes one bus write, to the effective address. -/
theorem store_eq_busWrite (v : Byte) {m : Mode} {s : State} {a : Word} (h : effectiveAddress m s = some a) :
    store v m s = .next (busWrite (resolve m s).2 a v) := by
  unfold store
  dsimp only
  rw [resolve_fst h]
  rfl

/-- Settles O43: each store is the shared operation, and its pointer reads come before its one write. -/
theorem storesWriteRegister : Obligations.StoresWriteRegister := by
  intro i s h
  obtain ⟨a, ha⟩ := effectiveAddress_of_memoryMnemonic i s (by rcases h with h | h | h <;> simp [h])
  refine ⟨a, (resolve i.mode s).2, ha, sameButReads_resolve i.mode s, ?_⟩
  rcases h with h | h | h
  · rw [exec_sta i s h, store_eq_busWrite s.a ha, if_pos h]
  · rw [exec_stx i s h, store_eq_busWrite s.x ha, if_neg (by simp [h]), if_pos h]
  · rw [exec_sty i s h, store_eq_busWrite s.y ha, if_neg (by simp [h]), if_neg (by simp [h])]

/-! Transfers. -/

theorem transfer_eq (put : State → Byte → State) (v : Byte) (s : State) : transfer put v s =
    .next { put s v with flags := { (put s v).flags with n := v.msb, z := decide (v = 0#8) } } :=
  congrArg Host.Outcome.next (setNZ_eq v (put s v))

/-- Settles O44: five of them are the shared operation; TXS writes `S` alone. -/
theorem transfersCopyRegister : Obligations.TransfersCopyRegister := fun s =>
  ⟨transfer_eq State.setX s.a s, transfer_eq State.setY s.a s, transfer_eq State.setA s.x s,
    transfer_eq State.setA s.y s, transfer_eq State.setX s.sp s, rfl⟩

end Sys2Proof.Machine
end

section
/-! The memory frame of an instruction (R140, R160, R167, R190, R83), over the chain of operations it is. What a store can
reach does not depend on the state, so the addresses of the instruction's first state bound all its writes. -/

namespace Sys2Proof.Machine

/-- Of what an address selects, the state decides the ROM bank alone (R65, R70). -/
theorem decodeAddr_eq_or_rom (s t : State) (a : Word) :
    decodeAddr t a = decodeAddr s a ∨ ∃ o o', decodeAddr t a = .rom o ∧ decodeAddr s a = .rom o' := by
  by_cases hw : 0x4000 ≤ a.toNat ∧ a.toNat ≤ 0xBFFF
  · obtain ⟨hlo, hhi⟩ := hw
    exact .inr ⟨_, _, decodeAddr_banked hlo hhi, decodeAddr_banked hlo hhi⟩
  · exact .inl (decodeAddr_eq_of_not_banked s t (by omega))

/-- Which bytes a store reaches depends on the launch parameters alone. -/
theorem storeReaches_congr {s t : State} (hp : t.params = s.params) (a b : Word) :
    StoreReaches t a b ↔ StoreReaches s a b := by
  unfold StoreReaches
  rw [hp]
  obtain ha | ⟨o, o', ha, ha'⟩ := decodeAddr_eq_or_rom s t a
  · rw [ha]
    obtain hb | ⟨q, q', hb, hb'⟩ := decodeAddr_eq_or_rom s t b
    · rw [hb]
    · rw [hb, hb']
      cases decodeAddr s a <;> exact Iff.rfl
  · rw [ha, ha']

/-- An address that a store does not reach goes on selecting the same. -/
theorem decodeAddr_busWrite_other {s : State} {a b : Word} (v : Byte) (hn : ¬ StoreReaches s a b) :
    decodeAddr (busWrite s a v) b = decodeAddr s b := by
  by_cases hw : RegWindow a
  · obtain ⟨hwlo, hwhi⟩ := hw
    have ha := decodeAddr_reg (s := s) hwlo hwhi
    rw [busWrite_reg_setAcc v ha, decodeAddr_setAcc]
    exact decodeAddr_regWrite v fun hlo hhi hr => hn (storeReaches_banked ha hlo hhi hr)
  · obtain ⟨hreg, _⟩ := busWrite_outside_window v hw
    exact decodeAddr_congr hreg (busWrite_params_eq s a v) b

section
variable {R : Rights} {s t : State}

theorem WritesOnly.params_eq (h : WritesOnly R s t) : t.params = s.params := by
  obtain ⟨_, _, _, _, _, hp, _⟩ := h.keeps
  exact hp

/-- An address that none of the writes reaches goes on selecting the same. -/
theorem WritesOnly.decodeAddr_eq (h : WritesOnly R s t) {b : Word} (hb : ∀ a, R.addr a → ¬ StoreReaches s a b) :
    decodeAddr t b = decodeAddr s b := by
  induction h with
  | refl => rfl
  | read _ a ih => rw [decodeAddr_congr (busRead_reg _ a) (busRead_params _ a), ih]
  | write h v ha ih =>
    rw [decodeAddr_busWrite_other v fun hr => hb _ ha ((storeReaches_congr h.params_eq _ b).1 hr), ih]
  | set _ p w _ ih =>
    rw [← ih]
    cases p <;> rfl

theorem hasByte_of_decodeAddr {b : Word} (hp : t.params = s.params) (hd : decodeAddr t b = decodeAddr s b) :
    hasByte t b = hasByte s b := by
  simp only [hasByte, hd, inImage, hp]

/-- A byte that exists and that none of the writes reaches reads as before. -/
theorem WritesOnly.peek_eq (h : WritesOnly R s t) {b : Word} (hex : hasByte s b = true)
    (hb : ∀ a, R.addr a → ¬ StoreReaches s a b) : peek t b = peek s b := by
  induction h with
  | refl => rfl
  | read h a ih =>
    have hex' := (hasByte_of_decodeAddr h.params_eq (h.decodeAddr_eq hb)).trans hex
    rw [sameBytes_of_sameButReads (sameButReads_busRead _ a) b hex', ih]
  | write h v ha ih =>
    rw [peek_busWrite_other v fun hr => hb _ ha ((storeReaches_congr h.params_eq _ b).1 hr), ih]
  | set _ p w _ ih =>
    rw [← ih]
    cases p <;> rfl

/-- Where no address may be written, every store is left. -/
theorem WritesOnly.stores_eq (h : WritesOnly R s t) (hR : ∀ a, ¬ R.addr a) :
    t.ram = s.ram ∧ t.disp = s.disp ∧ t.reg = s.reg ∧ t.ee = s.ee := by
  induction h with
  | refl => exact ⟨rfl, rfl, rfl, rfl⟩
  | read _ a ih => simpa using ih
  | write _ _ ha => exact absurd ha (hR _)
  | set _ p w _ ih => cases p <;> exact ih

end

/-- Settles O60: an instruction writes the bytes of `storedAddresses` alone. -/
theorem storesReachOnlyTheirBytes : Obligations.StoresReachOnlyTheirBytes := by
  intro i s t h
  have hw := exec_writesOnly h
  refine ⟨fun b hex hb => hw.peek_eq hex hb, fun hnil => hw.stores_eq fun a ha => ?_⟩
  have hmem : a ∈ storedAddresses i s := ha
  rw [hnil] at hmem
  exact List.not_mem_nil hmem

end Sys2Proof.Machine
end

section
/-! The stack (R160, R161, R166) and its four instructions (R162 to R165), with the status byte's bits (R27). -/

namespace Sys2Proof.Machine

/-! Push and pull. -/

theorem ofNat_toNat_eq_stackAddr (sp : Byte) : 0x0100#16 + BitVec.ofNat 16 sp.toNat = stackAddr sp := by
  rw [BitVec.ofNat_toNat]
  rfl

/-- `S` moves up modulo 0x100. -/
theorem toNat_sp_add_one (sp : Byte) : (sp + 1).toNat = (sp.toNat + 1) % 256 := rfl

/-- `S` moves down modulo 0x100. -/
theorem toNat_sp_sub_one (sp : Byte) : (sp - 1).toNat = (sp.toNat + 255) % 256 := by
  rw [BitVec.toNat_sub, Nat.add_comm]
  rfl

theorem peek_push_same {s : State} (v : Byte) (hs : stateWf s = true) : peek (push v s) (stackAddr s.sp) = v := by
  have h := decodeAddr_stackAddr s s.sp
  exact peek_busWrite_ram_same v hs h h

theorem peek_push_other {s : State} {b : Word} (v : Byte) (hn : ¬ StoreReaches s (stackAddr s.sp) b) :
    peek (push v s) b = peek s b := peek_busWrite_other v hn

theorem pull_fst_eq_peek (s : State) : (pull s).1 = peek s (stackAddr (s.sp + 1)) := rfl

theorem sp_pull_push (v : Byte) (s : State) : (pull (push v s)).2.sp = s.sp := by
  rw [pull_sp, push_sp, BitVec.sub_add_cancel]

theorem pull_push_fst {s : State} (v : Byte) (hs : stateWf s = true) : (pull (push v s)).1 = v := by
  rw [pull_fst_eq_peek, push_sp, BitVec.sub_add_cancel, peek_push_same v hs]

/-- Settles O33: a push is a bus write at the stack address of `S`, and the pull after it reads at the same address. -/
theorem pushAndPull : Obligations.PushAndPull := by
  intro s v hs
  rw [ofNat_toNat_eq_stackAddr, ← toNat_sp_add_one, ofNat_toNat_eq_stackAddr]
  refine ⟨peek_push_same v hs, ?_, fun b _ hn => peek_push_other v hn, ?_, pull_fst_eq_peek s, pull_push_fst v hs,
    sp_pull_push v s⟩
  · rw [push_sp, toNat_sp_sub_one]
  · rw [pull_sp]

/-! The bits of the status byte that PHP pushes (R27, D6). -/

theorem getLsbD_bitByte (b : Bool) {k j : Nat} (hj : j < 8) : (bitByte b k).getLsbD j = (b && decide (j = k)) := by
  cases b with
  | false => exact BitVec.getLsbD_zero
  | true =>
    show (1#8 <<< k).getLsbD j = decide (j = k)
    rw [BitVec.getLsbD_shiftLeft, BitVec.getLsbD_one, ← Bool.decide_and, ← decide_not, ← Bool.decide_and,
      ← Bool.decide_and]
    exact decide_eq_decide.2 (by omega)

theorem getLsbD_breakBit {k : Nat} (hk : k < 8) : breakBit.getLsbD k = decide (k = 4) :=
  getLsbD_bitByte (k := 4) true hk

/-- Where each flag stands in the status byte; bit 5 is always 1, bit 4 always 0. -/
theorem getLsbD_statusByte (f : Flags) {k : Nat} (hk : k < 8) : (statusByte f).getLsbD k =
    (f.n && decide (k = 7) || f.v && decide (k = 6) || decide (k = 5) || f.d && decide (k = 3) ||
      f.i && decide (k = 2) || f.z && decide (k = 1) || f.c && decide (k = 0)) := by
  have h5 : (0x20#8).getLsbD k = decide (k = 5) := getLsbD_bitByte (k := 5) true hk
  simp only [statusByte, BitVec.getLsbD_or, getLsbD_bitByte _ hk, h5]

/-! The pulls. -/

theorem pull_fst_eq_ram (s : State) : (pull s).1 = s.ram.get (0x100 + (s.sp.toNat + 1) % 256) := by
  rw [pull_fst, toNat_sp_add_one]

/-- A pull leaves what a read does, but for `S`. -/
theorem sameButReads_pull (s : State) : SameButReads (s.setSp (s.sp + 1)) (pull s).2 :=
  sameButReads_busRead (s.setSp (s.sp + 1)) (stackAddr (s.sp + 1))

theorem sameButReads_setFlags {s t : State} (h : SameButReads s t) (f : Flags) :
    SameButReads (s.setFlags f) (t.setFlags f) := congrArg (State.setFlags · f) h

/-- PLA's next state: the pulled byte in `A`, with `N` and `Z` from it. -/
theorem exec_pla_sameButReads (s : State) : ∃ t, exec .pla s = .next t ∧ t.a = (pull s).1 ∧
    SameButReads (setNZ t.a ((s.setSp (s.sp + 1)).setA t.a)) t :=
  ⟨_, rfl, rfl, sameButReads_setNZ (putAlike_sameButReads_setA _ _ (sameButReads_pull s) _) _⟩

/-- PLP's next state: all six flags from the pulled byte. -/
theorem exec_plp_sameButReads (s : State) : ∃ t, exec .plp s = .next t ∧
    SameButReads ((s.setSp (s.sp + 1)).setFlags (flagsOfByte (pull s).1)) t :=
  ⟨_, rfl, sameButReads_setFlags (sameButReads_pull s) _⟩

/-- Settles O45: PHA and PHP are a push, PLA and PLP a pull and what is made of the pulled byte. -/
theorem stackInstructions : Obligations.StackInstructions := by
  intro s
  refine ⟨rfl, ⟨statusByte s.flags ||| breakBit, rfl, ?_⟩, ?_, ?_⟩
  · simp only [BitVec.getLsbD_or, getLsbD_statusByte, getLsbD_breakBit, Nat.reduceLT]
    simp
  · obtain ⟨t, hx, ha, ht⟩ := exec_pla_sameButReads s
    rw [setNZ_eq] at ht
    refine ⟨t, hx, ?_⟩
    rw [← pull_fst_eq_ram, ← ha]
    exact ht
  · obtain ⟨t, hx, ht⟩ := exec_plp_sameButReads s
    rw [pull_fst_eq_ram] at ht
    exact ⟨t, hx, by rintro _ rfl; exact ht⟩

end Sys2Proof.Machine
end

section
/-! Arithmetic, logic, compares and the bit test (R170 to R180): what the two shared operations do in every form, the
arithmetic of their results, and that none of it reads `D` (R172, D2). -/

namespace Sys2Proof.Machine

/-! The shared operations: one operand read, then `A` and the flags, or the flags alone. -/

/-- An ALU operation reads its operand and writes the result and its flags. -/
theorem exec_alu {op : Byte → Byte → Flags → AluResult} {i : Instr} {s : State} (hm : dataMode i.mode = true)
    (hx : exec i s = alu op i.mode s) :
    ∃ (m : Byte) (t : State), OperandIs i.mode s m ∧ exec i s = .next t ∧ t.a = (op s.a m s.flags).value ∧
      t.flags = (op s.a m s.flags).flags ∧
      SameButReads ((s.setA (op s.a m s.flags).value).setFlags (op s.a m s.flags).flags) t := by
  have hread : SameButReads s (readOperand i.mode s).2 := sameButReads_readOperand i.mode s
  simp only [alu, sameButReads_a hread, sameButReads_flags hread] at hx
  exact ⟨_, _, operandIs_readOperand i.mode s hm, hx, rfl, rfl,
    sameButReads_setFlags (putAlike_sameButReads_setA _ _ hread _) _⟩

/-- An operation on flags alone reads its operand and writes the flags it computes. -/
theorem exec_flagsOnly {op : Byte → Flags → Flags} {i : Instr} {s : State} (hm : dataMode i.mode = true)
    (hx : exec i s = flagsOnly op i.mode s) :
    ∃ (m : Byte) (t : State), OperandIs i.mode s m ∧ exec i s = .next t ∧
      SameButReads (s.setFlags (op m s.flags)) t := by
  have hread : SameButReads s (readOperand i.mode s).2 := sameButReads_readOperand i.mode s
  simp only [flagsOnly, sameButReads_flags hread] at hx
  exact ⟨_, _, operandIs_readOperand i.mode s hm, hx, sameButReads_setFlags hread _⟩

/-! ADC (R171). -/

theorem and_signBit_bne_zero (b : Byte) : (b &&& 0x80#8 != 0#8) = b.msb := by
  rw [show 0x80#8 = BitVec.twoPow 8 7 from rfl, BitVec.and_twoPow, BitVec.msb_eq_getLsbD_last]
  cases b.getLsbD (8 - 1) <;> rfl

theorem addWithCarry_value (a m : Byte) (f : Flags) :
    (addWithCarry a m f).value = BitVec.ofNat 8 (a.toNat + m.toNat + f.c.toNat) := rfl

theorem addWithCarry_c (a m : Byte) (f : Flags) :
    (addWithCarry a m f).flags.c = decide (256 ≤ a.toNat + m.toNat + f.c.toNat) := rfl

/-- The result's sign differs from that of both operands. -/
theorem addWithCarry_v_eq_msb (a m : Byte) (f : Flags) : (addWithCarry a m f).flags.v =
    ((a.msb ^^ (addWithCarry a m f).value.msb) && (m.msb ^^ (addWithCarry a m f).value.msb)) := by
  rw [← BitVec.msb_xor, ← BitVec.msb_xor, ← BitVec.msb_and, ← and_signBit_bne_zero]
  rfl

/-- Signed overflow: the signed sum has no byte. -/
theorem addWithCarry_v (a m : Byte) (f : Flags) : (addWithCarry a m f).flags.v =
    (decide (a.toInt + m.toInt + (f.c.toNat : Int) < -128) ||
      decide (127 < a.toInt + m.toInt + (f.c.toNat : Int))) := by
  have ha := a.isLt
  have hm := m.isLt
  have hc := Bool.toNat_le f.c
  rw [addWithCarry_v_eq_msb, addWithCarry_value, Bool.eq_iff_iff]
  simp only [BitVec.msb_eq_decide, BitVec.toNat_ofNat, BitVec.toInt_eq_toNat_cond, Bool.and_eq_true, Bool.or_eq_true,
    bne_iff_ne, ne_eq, decide_eq_decide, decide_eq_true_eq]
  omega

/-- The flags ADC and SBC write, the others as they were. -/
theorem addWithCarry_flags (a m : Byte) (f : Flags) : (addWithCarry a m f).flags = { f with
    c := (addWithCarry a m f).flags.c, v := (addWithCarry a m f).flags.v
    n := (addWithCarry a m f).value.msb, z := decide ((addWithCarry a m f).value = 0#8) } := flagsNZ_eq _ _

/-- The frame of ADC and SBC, of a state whose `A` and flags hold their result. -/
theorem sameButReads_addWithCarry {m : Byte} {s t : State} (ha : t.a = (addWithCarry s.a m s.flags).value)
    (hf : t.flags = (addWithCarry s.a m s.flags).flags)
    (ht : SameButReads ((s.setA (addWithCarry s.a m s.flags).value).setFlags (addWithCarry s.a m s.flags).flags) t) :
    SameButReads { s with a := t.a, flags := { s.flags with
      c := t.flags.c, v := t.flags.v, n := t.a.msb, z := decide (t.a = 0#8) } } t := by
  rw [addWithCarry_flags] at ht
  rw [ha, hf]
  exact ht

/-- Settles O46: ADC in every form is the shared operation with `addWithCarry`. -/
theorem adcAdds : Obligations.AdcAdds := by
  intro i s h
  obtain ⟨m, t, hm, hx, ha, hf, ht⟩ := exec_alu (mode_dataMode i (by simp [h])) (exec_adc i s h)
  refine ⟨m, t, hm, hx, ha, ?_, ?_, sameButReads_addWithCarry ha hf ht⟩
  · rw [hf, addWithCarry_c]
  · rw [hf, addWithCarry_v]

/-! SBC (R173): ADC of the operand's complement. -/

theorem toNat_complement (m : Byte) : (m ^^^ 0xFF#8).toNat = 255 - m.toNat := by
  rw [show m ^^^ 0xFF#8 = ~~~m from BitVec.xor_allOnes, BitVec.toNat_not]

theorem toInt_complement (m : Byte) : (m ^^^ 0xFF#8).toInt = -m.toInt - 1 := by
  have hm := m.isLt
  simp only [BitVec.toInt_eq_toNat_cond, toNat_complement]
  omega

theorem subWithBorrow_value (a m : Byte) (f : Flags) : (subWithBorrow a m f).value =
    BitVec.ofInt 8 ((a.toNat : Int) - m.toNat - (1 - f.c.toNat)) := by
  have hm := m.isLt
  rw [subWithBorrow, addWithCarry_value, toNat_complement]
  apply BitVec.eq_of_toNat_eq
  rw [BitVec.toNat_ofNat, BitVec.toNat_ofInt]
  omega

/-- The carry after a subtraction: there was no borrow. -/
theorem subWithBorrow_c (a m : Byte) (f : Flags) :
    (subWithBorrow a m f).flags.c = decide (m.toNat + (1 - f.c.toNat) ≤ a.toNat) := by
  have hm := m.isLt
  have hc := Bool.toNat_le f.c
  rw [subWithBorrow, addWithCarry_c, toNat_complement]
  exact decide_eq_decide.2 (by omega)

/-- Signed overflow: the signed difference has no byte. -/
theorem subWithBorrow_v (a m : Byte) (f : Flags) : (subWithBorrow a m f).flags.v =
    (decide (a.toInt - m.toInt - (1 - (f.c.toNat : Int)) < -128) ||
      decide (127 < a.toInt - m.toInt - (1 - (f.c.toNat : Int)))) := by
  have hsum : a.toInt + (-m.toInt - 1) + (f.c.toNat : Int) = a.toInt - m.toInt - (1 - (f.c.toNat : Int)) := by omega
  rw [subWithBorrow, addWithCarry_v, toInt_complement, hsum]

/-- Settles O47: SBC in every form is the shared operation with `subWithBorrow`. -/
theorem sbcSubtracts : Obligations.SbcSubtracts := by
  intro i s h
  obtain ⟨m, t, hm, hx, ha, hf, ht⟩ := exec_alu (mode_dataMode i (by simp [h])) (exec_sbc i s h)
  refine ⟨m, t, hm, hx, ?_, ?_, ?_, sameButReads_addWithCarry ha hf ht⟩
  · rw [ha, subWithBorrow_value]
  · rw [hf, subWithBorrow_c]
  · rw [hf, subWithBorrow_v]

/-! AND, ORA, EOR (R174 to R176). -/

/-- A logic operation puts its result into `A` and sets `N` and `Z` from it. -/
theorem exec_logic {op : Byte → Byte → Byte} {i : Instr} {s : State} (hm : dataMode i.mode = true)
    (hx : exec i s = alu (fun a m f => ⟨op a m, flagsNZ (op a m) f⟩) i.mode s) :
    ∃ (m : Byte) (t : State), OperandIs i.mode s m ∧ exec i s = .next t ∧ t.a = op s.a m ∧
      SameButReads { s with a := t.a, flags := { s.flags with n := t.a.msb, z := decide (t.a = 0#8) } } t := by
  obtain ⟨m, t, hop, hx, ha, _, ht⟩ := exec_alu hm hx
  dsimp only at ha ht
  rw [← ha, flagsNZ_eq] at ht
  exact ⟨m, t, hop, hx, ha, ht⟩

/-- Settles O48: each mnemonic is the shared operation with its own bitwise one. -/
theorem logicOperations : Obligations.LogicOperations := by
  intro i s h
  have hmode : dataMode i.mode = true := mode_dataMode i (by rcases h with h | h | h <;> simp [h])
  rcases h with h | h | h
  · obtain ⟨m, t, hm, hx, ha, ht⟩ := exec_logic (op := (· &&& ·)) hmode (exec_and i s h)
    exact ⟨m, t, hm, hx, fun k _ => by simp [ha, h], ht⟩
  · obtain ⟨m, t, hm, hx, ha, ht⟩ := exec_logic (op := (· ||| ·)) hmode (exec_ora i s h)
    exact ⟨m, t, hm, hx, fun k _ => by simp [ha, h], ht⟩
  · obtain ⟨m, t, hm, hx, ha, ht⟩ := exec_logic (op := (· ^^^ ·)) hmode (exec_eor i s h)
    exact ⟨m, t, hm, hx, fun k _ => by simp [ha, h], ht⟩

/-! CMP, CPX, CPY, BIT (R177 to R180). -/

theorem compareFlags_eq (r m : Byte) (f : Flags) : compareFlags r m f =
    { f with c := decide (m.toNat ≤ r.toNat), z := decide (r = m), n := (r - m).msb } := by
  have hz : r - m = 0#8 ↔ r = m := sub_eq_zero
  rw [compareFlags, flagsNZ_eq]
  simp only [hz]

theorem and_beq_zero (a m : Byte) :
    (a &&& m == 0#8) = decide (∀ k : Fin 8, a.getLsbD k = false ∨ m.getLsbD k = false) := by
  rw [beq_eq_decide]
  refine decide_eq_decide.2 ⟨fun h k => ?_, fun h => BitVec.eq_of_getLsbD_eq fun k hk => ?_⟩
  · have hk : (a &&& m).getLsbD k = false := by rw [h, BitVec.getLsbD_zero]
    rwa [BitVec.getLsbD_and, Bool.and_eq_false_iff] at hk
  · rw [BitVec.getLsbD_and, BitVec.getLsbD_zero, Bool.and_eq_false_iff]
    exact h ⟨k, hk⟩

theorem bitFlags_eq (a m : Byte) (f : Flags) : bitFlags a m f = { f with
    z := decide (∀ k : Fin 8, a.getLsbD k = false ∨ m.getLsbD k = false), n := m.msb, v := m.getLsbD 6 } := by
  rw [bitFlags, and_beq_zero, BitVec.msb_eq_getLsbD_last]

/-- A compare of the register `r`. -/
theorem exec_compare {r : Byte} {i : Instr} {s : State} (hm : dataMode i.mode = true)
    (hx : exec i s = flagsOnly (compareFlags r) i.mode s) :
    ∃ (m : Byte) (t : State), OperandIs i.mode s m ∧ exec i s = .next t ∧
      SameButReads { s with flags := { s.flags with
        c := decide (m.toNat ≤ r.toNat), z := decide (r = m), n := (r - m).msb } } t := by
  obtain ⟨m, t, hop, hx, ht⟩ := exec_flagsOnly hm hx
  rw [compareFlags_eq] at ht
  exact ⟨m, t, hop, hx, ht⟩

/-- Settles O49: the three compares are the shared operation on their registers, BIT with its own flags. -/
theorem comparesSetFlags : Obligations.ComparesSetFlags := by
  refine ⟨fun i s h => ?_, fun i s h => ?_⟩
  · have hmode : dataMode i.mode = true := mode_dataMode i (by rcases h with h | h | h <;> simp [h])
    rcases h with h | h | h
    · obtain ⟨m, t, hm, hx, ht⟩ := exec_compare hmode (exec_cmp i s h)
      exact ⟨m, t, hm, hx, fun r hr => by simpa [hr, h] using ht⟩
    · obtain ⟨m, t, hm, hx, ht⟩ := exec_compare hmode (exec_cpx i s h)
      exact ⟨m, t, hm, hx, fun r hr => by simpa [hr, h] using ht⟩
    · obtain ⟨m, t, hm, hx, ht⟩ := exec_compare hmode (exec_cpy i s h)
      exact ⟨m, t, hm, hx, fun r hr => by simpa [hr, h] using ht⟩
  · obtain ⟨m, t, hm, hx, ht⟩ := exec_flagsOnly (mode_dataMode i (by simp [h])) (exec_bit i s h)
    rw [bitFlags_eq] at ht
    exact ⟨m, t, hm, hx, ht⟩

/-! `D` is not read (R172). Reads look at no flag at all; the sum looks at `C` alone. -/

theorem busRead_setFlags (s : State) (f : Flags) (a : Word) :
    busRead (s.setFlags f) a = ((busRead s a).1, (busRead s a).2.setFlags f) := by
  refine Prod.ext rfl ?_
  rw [busRead_snd, busRead_snd]
  rfl

theorem zeroPagePointer_setFlags (z : Byte) (s : State) (f : Flags) :
    zeroPagePointer z (s.setFlags f) = ((zeroPagePointer z s).1, (zeroPagePointer z s).2.setFlags f) := by
  simp only [zeroPagePointer, busRead_setFlags]

theorem busRead16_setFlags (s : State) (f : Flags) (a : Word) :
    busRead16 (s.setFlags f) a = ((busRead16 s a).1, (busRead16 s a).2.setFlags f) := by
  simp only [busRead16, busRead_setFlags]

theorem resolve_setFlags (m : Mode) (s : State) (f : Flags) :
    resolve m (s.setFlags f) = ((resolve m s).1, (resolve m s).2.setFlags f) := by
  cases m with
  | indx d => simp only [resolve, zeroPagePointer_setFlags, State.setFlags_x]
  | indy d => simp only [resolve, zeroPagePointer_setFlags, State.setFlags_y]
  | ind a => simp only [resolve, busRead16_setFlags]
  | _ => rfl

theorem opRead_setFlags (loc : Operand) (s : State) (f : Flags) :
    opRead loc (s.setFlags f) = ((opRead loc s).1, (opRead loc s).2.setFlags f) := by
  cases loc with
  | mem a => exact busRead_setFlags s f a
  | acc | imm _ => rfl

theorem readOperand_setFlags (m : Mode) (s : State) (f : Flags) :
    readOperand m (s.setFlags f) = ((readOperand m s).1, (readOperand m s).2.setFlags f) := by
  simp only [readOperand, resolve_setFlags, opRead_setFlags]

/-- The operation does not read `D` and hands it on. -/
def IgnoresD (op : Byte → Byte → Flags → AluResult) : Prop :=
  ∀ a m f b, op a m { f with d := b } = ⟨(op a m f).value, { (op a m f).flags with d := b }⟩

theorem addWithCarry_ignoresD : IgnoresD addWithCarry := fun _ _ _ _ => rfl

theorem subWithBorrow_ignoresD : IgnoresD subWithBorrow := fun a m => addWithCarry_ignoresD a (m ^^^ 0xFF#8)

/-- An ALU operation that does not read `D` answers the same step, `D` apart. -/
theorem alu_setD {op : Byte → Byte → Flags → AluResult} (hop : IgnoresD op) (m : Mode) (s : State) (b : Bool) :
    ∃ t, alu op m s = .next t ∧
      alu op m (s.setFlags { s.flags with d := b }) = .next (t.setFlags { t.flags with d := b }) := by
  refine ⟨_, rfl, ?_⟩
  have hflags : (readOperand m s).2.flags = s.flags := sameButReads_flags (sameButReads_readOperand m s)
  simp only [alu, readOperand_setFlags, State.setFlags_a, State.setFlags_flags, hflags]
  rw [hop]
  rfl

/-- Settles O57: both mnemonics are the shared operation with a sum that does not read `D`. -/
theorem decimalModeIgnored : Obligations.DecimalModeIgnored := by
  intro i s b h
  rcases h with h | h
  · simp only [exec_adc i _ h]
    exact alu_setD addWithCarry_ignoresD i.mode s b
  · simp only [exec_sbc i _ h]
    exact alu_setD subWithBorrow_ignoresD i.mode s b

end Sys2Proof.Machine
end

section
/-! Shifts, rotates, increments and decrements (R190 to R200): what the shared operation does at each location, and the
arithmetic of the results. -/

namespace Sys2Proof.Machine

/-! The shared operation (R190): at an address it is one read and one bus write, on the accumulator no bus access. -/

/-- The operand read at an effective address returns the byte there before any read. -/
theorem readOperand_fst {m : Mode} {s : State} {a : Word} (h : effectiveAddress m s = some a) :
    (readOperand m s).1 = peek s a := by
  rw [readOperand, resolve_fst h]
  exact peek_of_sameButReads (sameButReads_resolve m s) (resolve_freeCtr h) a

/-- The operand is read, then its location and the flags are written. -/
theorem readModifyWrite_eq (op : Byte → Flags → AluResult) (m : Mode) (s : State) : readModifyWrite op m s = .next
    ((opWrite (resolve m s).1 (op (readOperand m s).1 s.flags).value (readOperand m s).2).setFlags
      (op (readOperand m s).1 s.flags).flags) := by
  rw [← sameButReads_flags (sameButReads_readOperand m s)]
  rfl

theorem readModifyWrite_eq_busWrite (op : Byte → Flags → AluResult) {m : Mode} {s : State} {a : Word}
    (h : effectiveAddress m s = some a) : readModifyWrite op m s = .next
      ((busWrite (readOperand m s).2 a (op (peek s a) s.flags).value).setFlags (op (peek s a) s.flags).flags) := by
  rw [readModifyWrite_eq, readOperand_fst h, resolve_fst h]
  rfl

theorem readModifyWrite_acc (op : Byte → Flags → AluResult) (s : State) : readModifyWrite op .acc s =
    .next ((s.setA (op s.a s.flags).value).setFlags (op s.a s.flags).flags) := rfl

/-! ASL, LSR, ROL, ROR (R191 to R194). -/

/-- Shifts and rotates have the accumulator form and memory forms alone. -/
theorem mode_of_shiftMnemonic (i : Instr) (s : State) (h : i.mnemonic ∈ [Mnemonic.asl, .lsr, .rol, .ror]) :
    i.mode = .acc ∨ ∃ a, effectiveAddress i.mode s = some a := by
  cases i <;> first | exact .inl rfl | exact .inr ⟨_, rfl⟩ | (simp [Instr.mnemonic] at h)

/-- The operation writes `C`, and `N` and `Z` from its result; the other flags stay. -/
def WritesNZC (op : Byte → Flags → AluResult) : Prop :=
  ∀ m f, (op m f).flags =
    { f with c := (op m f).flags.c, n := (op m f).value.msb, z := decide ((op m f).value = 0#8) }

theorem shiftLeft_writesNZC : WritesNZC shiftLeft := fun _ _ => flagsNZ_eq _ _
theorem shiftRight_writesNZC : WritesNZC shiftRight := fun _ _ => flagsNZ_eq _ _
theorem rotateLeft_writesNZC : WritesNZC rotateLeft := fun _ _ => flagsNZ_eq _ _
theorem rotateRight_writesNZC : WritesNZC rotateRight := fun _ _ => flagsNZ_eq _ _

/-- A shift or rotate of the operand `m` goes into `A`, or in one bus write to the effective address. -/
theorem exec_shift {op : Byte → Flags → AluResult} (hop : WritesNZC op) {i : Instr} {s : State}
    (hmode : i.mode = .acc ∨ ∃ a, effectiveAddress i.mode s = some a)
    (hx : exec i s = readModifyWrite op i.mode s) :
    ∃ (m : Byte) (u : State), OperandIs i.mode s m ∧ SameButReads s u ∧ ∀ r c,
      r = (op m s.flags).value → c = (op m s.flags).flags.c →
      ((i.mode = .acc ∧ exec i s = .next { s with
          a := r, flags := { s.flags with c := c, n := r.msb, z := decide (r = 0#8) } }) ∨
       ∃ a, effectiveAddress i.mode s = some a ∧ (resolve i.mode s).1 = .mem a ∧
        exec i s = .next ((busWrite u a r).setFlags { s.flags with c := c, n := r.msb, z := decide (r = 0#8) })) := by
  rw [hx]
  rcases hmode with hacc | ⟨a, ha⟩
  · refine ⟨s.a, s, .inr (.inl ⟨hacc, rfl⟩), sameButReads_refl s, ?_⟩
    rintro r c rfl rfl
    rw [← hop, hacc]
    exact .inl ⟨rfl, readModifyWrite_acc op s⟩
  · refine ⟨peek s a, (readOperand i.mode s).2, .inr (.inr ⟨a, ha, rfl⟩), sameButReads_readOperand i.mode s, ?_⟩
    rintro r c rfl rfl
    rw [← hop]
    exact .inr ⟨a, ha, resolve_fst ha, readModifyWrite_eq_busWrite op ha⟩

theorem shiftLeft_toNat (m : Byte) (f : Flags) : (shiftLeft m f).value.toNat = 2 * m.toNat % 256 := by
  rw [shiftLeft, BitVec.toNat_shiftLeft, Nat.shiftLeft_eq, Nat.mul_comm]

theorem shiftLeft_c (m : Byte) (f : Flags) : (shiftLeft m f).flags.c = decide (128 ≤ m.toNat) :=
  m.msb_eq_getLsbD_last.symm.trans m.msb_eq_decide

theorem shiftRight_toNat (m : Byte) (f : Flags) : (shiftRight m f).value.toNat = m.toNat / 2 := by
  rw [shiftRight, BitVec.toNat_ushiftRight, Nat.shiftRight_eq_div_pow]

theorem shiftRight_c (m : Byte) (f : Flags) : (shiftRight m f).flags.c = decide (m.toNat % 2 = 1) :=
  Nat.testBit_zero m.toNat

theorem getElem_bitByte (b : Bool) (k : Nat) {j : Nat} (hj : j < 8) : (bitByte b k)[j] = (b && decide (j = k)) :=
  getLsbD_bitByte b hj

/-- Of the nine bits of `C` and a byte, `C` is bit 8. -/
theorem getLsbD_ofBool_append (c : Bool) (m : Byte) (k : Nat) :
    (BitVec.ofBool c ++ m).getLsbD k = if k < 8 then m.getLsbD k else decide (k = 8) && c := by
  have hbit : (k - 8 = 0) ↔ k < 8 ∨ k = 8 := by omega
  rw [BitVec.getLsbD_append, BitVec.getLsbD_ofBool]
  split
  · rfl
  · next hk => simp [hbit, hk]

/-- The nine bits of `C` and the operand, rotated left by one. -/
theorem rotateLeft_append (m : Byte) (f : Flags) : BitVec.ofBool (rotateLeft m f).flags.c ++ (rotateLeft m f).value =
    (BitVec.ofBool f.c ++ m).rotateLeft 1 := by
  refine BitVec.eq_of_getLsbD_eq fun k hk => ?_
  rw [BitVec.getLsbD_rotateLeft]
  simp only [getLsbD_ofBool_append, rotateLeft, BitVec.getLsbD_or, flagsNZ, BitVec.getLsbD_shiftLeft]
  obtain rfl | rfl | ⟨h0, h8⟩ : k = 0 ∨ k = 8 ∨ (0 < k ∧ k < 8) := by omega
  · simp [getElem_bitByte]
  · simp
  · simp [getElem_bitByte, h8, h0.ne', hk, show k - 1 < 8 by omega]

/-- The nine bits of `C` and the operand, rotated right by one. -/
theorem rotateRight_append (m : Byte) (f : Flags) :
    BitVec.ofBool (rotateRight m f).flags.c ++ (rotateRight m f).value =
      (BitVec.ofBool f.c ++ m).rotateRight 1 := by
  refine BitVec.eq_of_getLsbD_eq fun k hk => ?_
  rw [BitVec.getLsbD_rotateRight]
  simp only [getLsbD_ofBool_append, rotateRight, BitVec.getLsbD_or, flagsNZ, BitVec.getLsbD_ushiftRight]
  obtain rfl | rfl | h7 : k = 8 ∨ k = 7 ∨ k < 7 := by omega
  · simp
  · simp [getElem_bitByte]
  · have h8 : k < 8 := by omega
    simp [getElem_bitByte, h8, h7.ne, show 1 + k < 8 by omega]

/-- Settles O50: each mnemonic is the shared operation with its own shift or rotate. -/
theorem shiftsAndRotates : Obligations.ShiftsAndRotates := by
  intro i s h
  have hmode := mode_of_shiftMnemonic i s (by rcases h with h | h | h | h <;> simp [h])
  rcases h with h | h | h | h
  · obtain ⟨m, u, hm, hu, hx⟩ := exec_shift shiftLeft_writesNZC hmode (exec_asl i s h)
    exact ⟨m, _, _, u, hm, hu, hx _ _ rfl rfl, by simp [h, shiftLeft_toNat, shiftLeft_c]⟩
  · obtain ⟨m, u, hm, hu, hx⟩ := exec_shift shiftRight_writesNZC hmode (exec_lsr i s h)
    exact ⟨m, _, _, u, hm, hu, hx _ _ rfl rfl, by simp [h, shiftRight_toNat, shiftRight_c]⟩
  · obtain ⟨m, u, hm, hu, hx⟩ := exec_shift rotateLeft_writesNZC hmode (exec_rol i s h)
    exact ⟨m, _, _, u, hm, hu, hx _ _ rfl rfl, by simp [h, rotateLeft_append]⟩
  · obtain ⟨m, u, hm, hu, hx⟩ := exec_shift rotateRight_writesNZC hmode (exec_ror i s h)
    exact ⟨m, _, _, u, hm, hu, hx _ _ rfl rfl, by simp [h, rotateRight_append]⟩

/-! INC, DEC and the index steps (R195 to R200). -/

theorem increment_flags (m : Byte) (f : Flags) :
    (increment m f).flags = { f with n := (m + 1).msb, z := decide (m + 1 = 0#8) } := flagsNZ_eq (m + 1) f

theorem decrement_flags (m : Byte) (f : Flags) :
    (decrement m f).flags = { f with n := (m - 1).msb, z := decide (m - 1 = 0#8) } := flagsNZ_eq (m - 1) f

/-- A step up of the register that held `v`. -/
theorem stepRegister_increment (put : State → Byte → State) (v : Byte) (s : State) :
    stepRegister put (increment v s.flags) s =
      .next ((put s (v + 1)).setFlags { s.flags with n := (v + 1).msb, z := decide (v + 1 = 0#8) }) := by
  rw [stepRegister, increment_flags]
  rfl

/-- A step down of the register that held `v`. -/
theorem stepRegister_decrement (put : State → Byte → State) (v : Byte) (s : State) :
    stepRegister put (decrement v s.flags) s =
      .next ((put s (v - 1)).setFlags { s.flags with n := (v - 1).msb, z := decide (v - 1 = 0#8) }) := by
  rw [stepRegister, decrement_flags]
  rfl

/-- Settles O51: INC and DEC are the shared operation at an address; the index steps write their register and flags. -/
theorem incrementsAndDecrements : Obligations.IncrementsAndDecrements := by
  refine ⟨fun i s h => ?_,
    fun s => ⟨s.x + 1, s.x - 1, toNat_sp_add_one s.x, toNat_sp_sub_one s.x,
      stepRegister_increment State.setX s.x s, stepRegister_decrement State.setX s.x s⟩,
    fun s => ⟨s.y + 1, s.y - 1, toNat_sp_add_one s.y, toNat_sp_sub_one s.y,
      stepRegister_increment State.setY s.y s, stepRegister_decrement State.setY s.y s⟩⟩
  obtain ⟨a, ha⟩ := effectiveAddress_of_memoryMnemonic i s (by rcases h with h | h <;> simp [h])
  have hread : SameButReads s (readOperand i.mode s).2 := sameButReads_readOperand i.mode s
  rcases h with h | h
  · refine ⟨a, peek s a, peek s a + 1, _, ha, rfl, hread, by rw [if_pos h, toNat_sp_add_one], ?_⟩
    rw [exec_inc i s h, readModifyWrite_eq_busWrite increment ha, increment_flags]
    rfl
  · refine ⟨a, peek s a, peek s a - 1, _, ha, rfl, hread, by rw [if_neg (by simp [h]), toNat_sp_sub_one], ?_⟩
    rw [exec_dec i s h, readModifyWrite_eq_busWrite decrement ha, decrement_flags]
    rfl

end Sys2Proof.Machine
end

section
/-! Jumps, subroutines and branches (R210 to R223): the target each loads, and that the return of RTS undoes the call of
JSR. -/

namespace Sys2Proof.Machine

/-! Branches (R215 to R223). -/

/-- The target of a branch (R114): the sign-extended offset is the byte read as a signed number. -/
theorem relTarget_eq (d : Byte) (pc : Word) : relTarget d pc = BitVec.ofInt 16 ((pc.toNat : Int) + d.toInt) := by
  rw [BitVec.ofInt_add, BitVec.ofInt_natCast, BitVec.ofNat_toNat, BitVec.setWidth_eq]
  rfl

/-- Settles O53: every branch is the shared one, on a flag or on its complement. -/
theorem branchesTakeOnCondition : Obligations.BranchesTakeOnCondition := by
  rintro s d taken rfl
  rw [← relTarget_eq]
  have hclear (flag : Bool) :
      branch (!flag) d s = .next (if flag = false then s.setPc (relTarget d s.pc) else s) := by
    simp only [branch_eq, Bool.not_eq_true']
  exact ⟨hclear s.flags.c, branch_eq s.flags.c d s, branch_eq s.flags.z d s, hclear s.flags.z,
    branch_eq s.flags.n d s, hclear s.flags.n, hclear s.flags.v, branch_eq s.flags.v d s⟩

/-! JMP through a pointer (R212). -/

/-- The word at two bytes that exist; the first read does not change the second byte. -/
theorem busRead16_fst {s : State} (a : Word) (h : hasByte s (a + 1) = true) :
    (busRead16 s a).1 = wordOf (peek s (a + 1)) (peek s a) :=
  congrArg (wordOf · (peek s a)) (sameBytes_of_sameButReads (sameButReads_busRead s a) (a + 1) h)

/-- Everything JMP indirect does. -/
theorem execJmpInd_eq (a : Word) (s : State) :
    execJmpInd a s = .next ((busRead16 s a).2.setPc (busRead16 s a).1) := rfl

/-! The words that JSR pushes and RTS pulls (R167, R213, R214). -/

/-- Everything RTS does. -/
theorem execRts_eq (s : State) : execRts s = .next ((pullWord s).2.setPc ((pullWord s).1 + 1)) := rfl

theorem sp_add_one_add_one (sp : Byte) : sp + 1 + 1 = sp + 2 := BitVec.add_assoc sp 1 1

theorem pushWord_sp (w : Word) (s : State) : (pushWord w s).sp = s.sp - 2 := by
  rw [pushWord, push_sp, push_sp, BitVec.sub_sub]
  rfl

theorem pullWord_sp (s : State) : (pullWord s).2.sp = s.sp + 2 := by
  rw [pullWord_snd, pull_sp, pull_sp, sp_add_one_add_one]

/-- Pulling a word leaves what two reads do, but for `S`. -/
theorem sameButReads_pullWord (s : State) : SameButReads (s.setSp (s.sp + 2)) (pullWord s).2 := by
  have hfirst : SameButReads ((s.setSp (s.sp + 1)).setSp ((pull s).2.sp + 1)) ((pull s).2.setSp ((pull s).2.sp + 1)) :=
    congrArg (State.setSp · ((pull s).2.sp + 1)) (sameButReads_pull s)
  rw [pull_sp, sp_add_one_add_one] at hfirst
  have hsecond := sameButReads_pull (pull s).2
  rw [pull_sp, sp_add_one_add_one] at hsecond
  exact sameButReads_trans hfirst hsecond

/-- The word pushed is the word pulled: the second push stores below the first, and RAM is canonical. -/
theorem pullWord_pushWord_fst {s : State} (w : Word) (hs : stateWf s = true) : (pullWord (pushWord w s)).1 = w := by
  have hlow : (pushWord w s).ram.get (0x100 + (s.sp - 1).toNat) = loByte w := by
    obtain ⟨_, _, _, hram, _⟩ := (stateWf_iff (push (hiByte w) s)).1 (push_wf (hiByte w) hs)
    rw [pushWord, push_ram, push_sp]
    exact Memory_get_set_same hram
  have hhigh : (pushWord w s).ram.get (0x100 + s.sp.toNat) = hiByte w := by
    obtain ⟨_, _, _, hram, _⟩ := (stateWf_iff s).1 hs
    have hne : 0x100 + s.sp.toNat ≠ 0x100 + (s.sp - 1).toNat := by bv_omega
    rw [pushWord, push_ram, push_ram, push_sp, Memory_get_set_other hne]
    exact Memory_get_set_same hram
  have hsp : (pushWord w s).sp + 1 = s.sp - 1 := by rw [pushWord, push_sp, push_sp, BitVec.sub_add_cancel]
  rw [pullWord_fst, hsp, BitVec.sub_add_cancel, hlow, hhigh, wordOf_hiByte_loByte]

/-- RTS after JSR: the pulled word is the address before the next instruction's (R213, R214). -/
theorem execRts_after_jsr {s : State} (a : Word) (hs : stateWf s = true) :
    ∃ u, execRts ((pushWord (s.pc - 1) s).setPc a) = .next u ∧ u.pc = s.pc ∧ u.sp = s.sp := by
  refine ⟨_, execRts_eq _, ?_, ?_⟩
  · have hword : (pullWord ((pushWord (s.pc - 1) s).setPc a)).1 = s.pc - 1 := by
      rw [pullWord_fst, State.setPc_ram, State.setPc_sp, ← pullWord_fst, pullWord_pushWord_fst _ hs]
    rw [State.setPc_pc, hword, BitVec.sub_add_cancel]
  · rw [State.setPc_sp, pullWord_sp, State.setPc_sp, pushWord_sp, BitVec.sub_add_cancel]

/-- Settles O52: each jump is what its equation says, and JSR's pushes are undone by RTS's pulls. -/
theorem jumpsAndSubroutines : Obligations.JumpsAndSubroutines := by
  intro s a
  refine ⟨rfl, ⟨_, execJmpInd_eq a s, sameButReads_setPc (sameButReads_busRead16 s a) _,
      fun _ hhigh => busRead16_fst a hhigh⟩,
    execJsr_eq a s, ⟨_, execRts_eq s, ?rts⟩, fun hs => ?rtsAfterJsr⟩
  case rts =>
    rw [pullWord_fst, sp_add_one_add_one]
    exact sameButReads_setPc (sameButReads_pullWord s) _
  case rtsAfterJsr =>
    obtain ⟨u, hrts, hpc, hsp⟩ := execRts_after_jsr a hs
    exact ⟨_, u, execJsr_eq a s, hrts, hpc, hsp⟩

end Sys2Proof.Machine
end

section
/-! The flag instructions, NOP, BRK and RTI (R230 to R240): what an entry leaves on the stack, and that RTI takes it back
(R277). -/

namespace Sys2Proof.Machine

/-- Settles O54: each flag instruction is one flag update, by its arm of `exec`; NOP's next state is its own. -/
theorem flagInstructionsAndNop : Obligations.FlagInstructionsAndNop := fun _ =>
  ⟨rfl, rfl, rfl, rfl, rfl, rfl, rfl, rfl⟩

/-! The pushes of an entry (R167, R265, R266). -/

theorem sp_sub_one_sub_one (sp : Byte) : sp - 1 - 1 = sp - 2 := BitVec.sub_sub sp 1 1

theorem sp_sub_two_sub_one (sp : Byte) : sp - 2 - 1 = sp - 3 := BitVec.sub_sub sp 2 1

theorem pushWord_ram (w : Word) (s : State) : (pushWord w s).ram =
    (s.ram.set (0x100 + s.sp.toNat) (hiByte w)).set (0x100 + (s.sp - 1).toNat) (loByte w) := by
  rw [pushWord, push_ram, push_ram, push_sp]

theorem sameButAccess_trans {s t u : State} (h : SameButAccess s t) (k : SameButAccess t u) : SameButAccess s u := by
  obtain ⟨_, rfl⟩ := h
  obtain ⟨m, rfl⟩ := k
  exact ⟨m, rfl⟩

theorem sameButAccess_setRam_setSp {s t : State} (h : SameButAccess s t) (m : Memory) (v : Byte) :
    SameButAccess ((s.setRam m).setSp v) ((t.setRam m).setSp v) := by
  obtain ⟨acc, rfl⟩ := h
  exact ⟨acc, rfl⟩

theorem sameButAccess_push (v : Byte) (s : State) :
    SameButAccess ((s.setRam (s.ram.set (0x100 + s.sp.toNat) v)).setSp (s.sp - 1)) (push v s) :=
  ⟨_, push_eq v s⟩

theorem sameButAccess_pushWord (w : Word) (s : State) :
    SameButAccess ((s.setRam (pushWord w s).ram).setSp (s.sp - 2)) (pushWord w s) := by
  have h := sameButAccess_trans (sameButAccess_setRam_setSp (sameButAccess_push (hiByte w) s) _ _)
    (sameButAccess_push (loByte w) (push (hiByte w) s))
  rw [push_sp, sp_sub_one_sub_one] at h
  rw [pushWord, push_ram, push_sp]
  exact h

/-- An entry's three pushes write RAM, `S` and access flags. -/
theorem sameButAccess_push_pushWord (status : Byte) (w : Word) (s : State) : SameButAccess
    ((s.setRam ((pushWord w s).ram.set (0x100 + (s.sp - 2).toNat) status)).setSp (s.sp - 3))
    (push status (pushWord w s)) := by
  have h := sameButAccess_trans (sameButAccess_setRam_setSp (sameButAccess_pushWord w s) _ _)
    (sameButAccess_push status (pushWord w s))
  rwa [pushWord_sp, sp_sub_two_sub_one] at h

/-! Entering through 0xFFFE (R74, R266). -/

/-- A word read of two bytes that exist sets access flags alone. -/
theorem sameButAccess_busRead16 {s : State} {a : Word} (hlo : hasByte s a = true) (hhi : hasByte s (a + 1) = true) :
    SameButAccess s (busRead16 s a).2 := by
  refine ⟨(busRead16 s a).2.acc, ?_⟩
  have hhi' : hasByte (busRead s a).2 (a + 1) = true := by
    rw [hasByte_congr (busRead_reg s a) (busRead_params s a), hhi]
  rw [busRead16_snd, busRead_snd (busRead s a).2, if_pos hhi', busRead_snd s a, if_pos hlo]
  rfl

/-- Everything an IRQ or BRK entry does (R266). -/
theorem sameButAccess_irq (fromBreak : Bool) (s : State) : SameButAccess
    { s with
      ram := ((s.ram.set (0x100 + s.sp.toNat) (hiByte s.pc)).set (0x100 + (s.sp - 1).toNat) (loByte s.pc)).set
        (0x100 + (s.sp - 2).toNat) (if fromBreak then statusByte s.flags ||| breakBit else statusByte s.flags)
      sp := s.sp - 3
      pc := pri s.params (irqPend s)
      flags := { s.flags with i := true } } (irq fromBreak s) := by
  generalize hstatus : (if fromBreak then statusByte s.flags ||| breakBit else statusByte s.flags) = status
  obtain ⟨_, hpush⟩ := sameButAccess_push_pushWord status s.pc s
  obtain ⟨acc, hread⟩ : SameButAccess (push status (pushWord s.pc s)) (busRead16 _ irqVector).2 :=
    sameButAccess_busRead16 rfl rfl
  refine ⟨acc, ?_⟩
  rw [irq, hstatus, enterInterrupt_eq, busRead16_irqVector, hread, hpush, pushWord_ram]
  rfl

/-- Settles O55: BRK is the entry from the address after the signature byte, with the break bit. -/
theorem brkEntersHandler : Obligations.BrkEntersHandler := by
  intro s
  obtain ⟨acc, hirq⟩ := sameButAccess_irq true (s.setPc (s.pc + 1))
  refine ⟨acc, statusByte s.flags ||| breakBit, congrArg Host.Outcome.next hirq, ?_⟩
  simp only [BitVec.getLsbD_or, getLsbD_statusByte, getLsbD_breakBit, Nat.reduceLT]
  simp

/-! RTI (R240). -/

theorem sp_add_one_add_two (sp : Byte) : sp + 1 + 2 = sp + 3 := BitVec.add_assoc sp 1 2

theorem sameButReads_setSp {s t : State} (h : SameButReads s t) (v : Byte) : SameButReads (s.setSp v) (t.setSp v) :=
  congrArg (State.setSp · v) h

/-- RTI pulls three bytes: the flags, then `PC` low and high. -/
theorem sameButReads_returnFromInterrupt (s : State) : SameButReads
    { s with
      sp := s.sp + 3
      pc := wordOf (s.ram.get (0x100 + (s.sp + 3).toNat)) (s.ram.get (0x100 + (s.sp + 2).toNat))
      flags := flagsOfByte (s.ram.get (0x100 + (s.sp + 1).toNat)) } (returnFromInterrupt s) := by
  have hflags := sameButReads_setFlags (sameButReads_pull s) (flagsOfByte (pull s).1)
  have hpulls := sameButReads_pullWord ((pull s).2.setFlags (flagsOfByte (pull s).1))
  have hpc : (pullWord ((pull s).2.setFlags (flagsOfByte (pull s).1))).1 =
      wordOf (s.ram.get (0x100 + (s.sp + 3).toNat)) (s.ram.get (0x100 + (s.sp + 2).toNat)) := by
    rw [pullWord_fst, State.setFlags_sp, State.setFlags_ram, pull_sp, pull_ram, sp_add_one_add_one (s.sp + 1),
      sp_add_one_add_two, sp_add_one_add_one]
  rw [State.setFlags_sp, pull_sp, sp_add_one_add_two] at hpulls
  rw [← hpc, ← pull_fst]
  exact sameButReads_setPc (sameButReads_trans (sameButReads_setSp hflags (s.sp + 3)) hpulls) _

/-- RTI pulls over the flags without reading them. -/
theorem returnFromInterrupt_setFlags (f : Flags) (s : State) :
    returnFromInterrupt (s.setFlags f) = returnFromInterrupt s := by
  simp only [returnFromInterrupt, pullWord_fst, pullWord_snd, pull_fst, pull_snd]
  rfl

/-! RTI after an entry (R277). -/

theorem flagsOfByte_statusByte (f : Flags) : flagsOfByte (statusByte f) = f := by
  simp only [flagsOfByte, getLsbD_statusByte, Nat.reduceLT]
  simp

/-- The flags of a status byte do not depend on the break bit (R28). -/
theorem flagsOfByte_or_breakBit (b : Byte) : flagsOfByte (b ||| breakBit) = flagsOfByte b := by
  simp only [flagsOfByte, BitVec.getLsbD_or, getLsbD_breakBit, Nat.reduceLT]
  simp

theorem ram_get_push_other (v : Byte) {s : State} {sp : Byte} (hsp : sp ≠ s.sp) :
    (push v s).ram.get (0x100 + sp.toNat) = s.ram.get (0x100 + sp.toNat) := by
  rw [push_ram]
  exact Memory_get_set_other (by bv_omega)

/-- RTI takes back three pushes, from wherever the entry went. -/
theorem returnFromInterrupt_of_pushes {s t : State} {status : Byte} {w target : Word} (hs : stateWf s = true)
    (hpushes : SameButReads ((push status (pushWord w s)).setPc target) t) :
    (returnFromInterrupt t).pc = w ∧ (returnFromInterrupt t).sp = s.sp ∧
      (returnFromInterrupt t).flags = flagsOfByte status := by
  have hram : t.ram = (push status (pushWord w s)).ram := by
    rw [sameButReads_ram hpushes, State.setPc_ram]
  have hsp : t.sp = (push status (pushWord w s)).sp := by
    rw [sameButReads_sp hpushes, State.setPc_sp]
  have hrti := sameButReads_returnFromInterrupt t
  refine ⟨(sameButReads_pc hrti).trans ?_, (sameButReads_sp hrti).trans ?_,
    (sameButReads_flags hrti).trans (congrArg flagsOfByte ?_)⟩
  · have hword := pullWord_pushWord_fst w hs
    rw [pullWord_fst] at hword
    have h2 : t.sp + 2 = (pushWord w s).sp + 1 := by rw [hsp, push_sp]; bv_omega
    have h3 : t.sp + 3 = (pushWord w s).sp + 1 + 1 := by rw [hsp, push_sp]; bv_omega
    rw [hram, h2, h3, ram_get_push_other status (by bv_omega), ram_get_push_other status (by bv_omega), hword]
  · rw [hsp, push_sp, pushWord_sp]
    bv_omega
  · have hbyte := pull_push_fst status (pushWord_wf w hs)
    rw [hram, hsp, ← pull_fst, hbyte]

/-- An entry reads its vector after the pushes. -/
theorem sameButReads_enterInterrupt (status : Byte) (vector : Word) (s : State) : SameButReads
    ((push status (pushWord s.pc s)).setPc (enterInterrupt status vector s).pc) (enterInterrupt status vector s) :=
  sameButReads_setPc (sameButReads_busRead16 _ vector) _

/-- What an entry saved or left alone in `s` stands in `t` again. -/
def Restored (s t : State) : Prop :=
  t.pc = s.pc ∧ t.sp = s.sp ∧ t.flags = s.flags ∧ t.a = s.a ∧ t.x = s.x ∧ t.y = s.y

/-- RTI undoes an entry, whatever the vector, when the status byte holds the flags. -/
theorem restored_enterInterrupt {s : State} {status : Byte} (vector : Word) (hs : stateWf s = true)
    (hf : flagsOfByte status = s.flags) : Restored s (returnFromInterrupt (enterInterrupt status vector s)) := by
  have hent := sameButReads_enterInterrupt status vector s
  have hrti := sameButReads_returnFromInterrupt (enterInterrupt status vector s)
  obtain ⟨hpc, hsp, hflags⟩ := returnFromInterrupt_of_pushes hs hent
  refine ⟨hpc, hsp, hflags.trans hf, (sameButReads_a hrti).trans ?_, (sameButReads_x hrti).trans ?_,
    (sameButReads_y hrti).trans ?_⟩
  · exact (sameButReads_a hent).trans (by simp [pushWord])
  · exact (sameButReads_x hent).trans (by simp [pushWord])
  · exact (sameButReads_y hent).trans (by simp [pushWord])

/-- An IRQ or BRK entry sets `I` after its pushes, and RTI ignores the break bit: it undoes both. -/
theorem restored_irq (fromBreak : Bool) {s : State} (hs : stateWf s = true) :
    Restored s (returnFromInterrupt (irq fromBreak s)) := by
  rw [irq, setI, returnFromInterrupt_setFlags]
  have hf := flagsOfByte_statusByte s.flags
  cases fromBreak with
  | false => exact restored_enterInterrupt irqVector hs hf
  | true => exact restored_enterInterrupt irqVector hs ((flagsOfByte_or_breakBit _).trans hf)

/-- Settles O56: the three pulls, and that they take back the three pushes of each entry. -/
theorem rtiRestores : Obligations.RtiRestores := by
  intro s
  refine ⟨⟨_, rfl, ?_⟩, fun hs entered hentered => ⟨_, rfl, ?_⟩⟩
  · rintro _ rfl
    exact sameButReads_returnFromInterrupt s
  · obtain rfl | rfl | rfl := hentered
    · exact restored_enterInterrupt nmiVector hs (flagsOfByte_statusByte s.flags)
    · exact restored_irq false hs
    · exact restored_irq true hs

end Sys2Proof.Machine
end

section
/-! The two requests of the environment (R272, R274): which lines are enabled, and what a request on one does. -/

namespace Sys2Proof.Machine

/-! A line's mask bit: line `k` is bit `width − 1 − k`, and beyond the mask there is no bit (R272, R274). The masks
`0x8000` of 16 bits and `0x80` of 8 are both `BitVec.twoPow w (w - 1)`. -/

theorem twoPow_top_shift {w line : Nat} (h : line < w) :
    BitVec.twoPow w (w - 1) >>> line = BitVec.twoPow w (w - 1 - line) := by
  apply BitVec.eq_of_getLsbD_eq
  intro j _
  rw [BitVec.getLsbD_ushiftRight, BitVec.getLsbD_twoPow, BitVec.getLsbD_twoPow]
  congr 1 <;> exact decide_eq_decide.2 (by omega)

theorem and_lineBit_beyond {w : Nat} (m : BitVec w) {line : Nat} (h : w ≤ line) :
    m &&& (BitVec.twoPow w (w - 1) >>> line) = 0#w := by
  rw [BitVec.ushiftRight_eq_zero h, BitVec.and_zero]

theorem and_lineBit_eq_zero_iff {w : Nat} (m : BitVec w) {line : Nat} (h : line < w) :
    m &&& (BitVec.twoPow w (w - 1) >>> line) = 0#w ↔ m.getLsbD (w - 1 - line) = false := by
  rw [twoPow_top_shift h, BitVec.and_twoPow]
  have hbit : BitVec.twoPow w (w - 1 - line) ≠ 0#w := by
    intro hzero
    have hnat := congrArg BitVec.toNat hzero
    rw [BitVec.toNat_twoPow_of_lt (by omega)] at hnat
    exact (Nat.two_pow_pos _).ne' hnat
  cases m.getLsbD (w - 1 - line) <;> simp [hbit]

/-! `fire_irq` (R272). -/

theorem fireIrq_of_masked {line : Nat} {s : State} (h : irqEn s &&& (0x8000#16 >>> line) = 0#16) :
    fireIrq line s = s := if_pos h

/-- Storing a word's two bytes in the pending registers makes it the pending mask: the registers are distinct (D11). -/
theorem irqPend_store {s : State} (p : Word) (hs : stateWf s = true) :
    irqPend (storeReg (storeReg s s.params.regIrqPendHi (hiByte p)) s.params.regIrqPendLo (loByte p)) = p := by
  have hn := registerIndices_nodup (stateWf_valid hs)
  have hne : s.params.regIrqPendHi ≠ s.params.regIrqPendLo := by
    simp only [Params.registerIndices, List.nodup_cons, List.mem_cons, not_or] at hn
    tauto
  have hs' := storeReg_wf s.params.regIrqPendHi (hiByte p) hs
  have hhi : regByte (storeReg (storeReg s s.params.regIrqPendHi (hiByte p)) s.params.regIrqPendLo (loByte p))
      s.params.regIrqPendHi = hiByte p := by
    rw [regByte_storeReg_other _ _ hne, regByte_storeReg_same _ _ hs]
  have hlo : regByte (storeReg (storeReg s s.params.regIrqPendHi (hiByte p)) s.params.regIrqPendLo (loByte p))
      s.params.regIrqPendLo = loByte p := regByte_storeReg_same _ _ hs'
  exact (congrArg₂ wordOf hhi hlo).trans (wordOf_hiByte_loByte p)

theorem irqPend_fireIrq {line : Nat} {s : State} (hs : stateWf s = true)
    (h : irqEn s &&& (0x8000#16 >>> line) ≠ 0#16) :
    irqPend (fireIrq line s) = irqPend s ||| (0x8000#16 >>> line) := by
  unfold fireIrq
  rw [if_neg h]
  exact irqPend_store _ hs

theorem regByte_fireIrq_other (line : Nat) (s : State) {r : Byte} (hhi : r ≠ s.params.regIrqPendHi)
    (hlo : r ≠ s.params.regIrqPendLo) : regByte (fireIrq line s) r = regByte s r := by
  obtain h | ⟨_, _, h⟩ := fireIrq_cases line s <;> rw [h]
  rw [regByte_storeReg_other _ _ hlo, regByte_storeReg_other _ _ hhi]

/-- Settles O16: a line with no bit in the enable mask does nothing; the others store the pending mask and their bit. -/
theorem fireIrqSetsEnabledLine : Obligations.FireIrqSetsEnabledLine := by
  refine fun s line hs => ⟨fun h => ?beyond, fun h hoff => ?disabled, fun h hon => ⟨?pending, ?reg, ?other⟩⟩
  case beyond => exact fireIrq_of_masked (and_lineBit_beyond (irqEn s) h)
  case disabled => exact fireIrq_of_masked ((and_lineBit_eq_zero_iff (irqEn s) h).2 hoff)
  case pending =>
    have henabled := (and_lineBit_eq_zero_iff (irqEn s) h).not.2 (Bool.ne_false_iff.2 hon)
    exact irqPend_fireIrq hs henabled
  case reg =>
    obtain ⟨m, hm⟩ := fireIrq_eq_setReg line s
    rw [hm, State.setReg_reg]
  case other => exact fun r hhi hlo => regByte_fireIrq_other line s hhi hlo

/-! `fire_nmi` (R274). -/

theorem fireNmi_of_masked {line : Nat} {s : State} (h : regByte s s.params.regNmiEn &&& (0x80#8 >>> line) = 0#8) :
    fireNmi line s = s := if_pos h

theorem fireNmi_of_halted (line : Nat) {s : State} (h : s.halted = true) : fireNmi line s = s := by
  unfold fireNmi
  rw [if_pos h, ite_self]

theorem fireNmi_of_enabled {line : Nat} {s : State} (hh : s.halted = false)
    (h : regByte s s.params.regNmiEn &&& (0x80#8 >>> line) ≠ 0#8) : fireNmi line s = nmi s := by
  unfold fireNmi
  rw [if_neg h, hh]
  rfl

/-- Settles O17: a line with no enable bit does nothing; the others enter `nmi()` while the engine runs. -/
theorem fireNmiEntersWhenEnabled : Obligations.FireNmiEntersWhenEnabled := by
  refine fun s line hh => ⟨fun h => ?beyond, fun h hoff => ?disabled, fun h hon => ?enabled⟩
  case beyond => exact fireNmi_of_masked (and_lineBit_beyond _ h)
  case disabled => exact fireNmi_of_masked ((and_lineBit_eq_zero_iff _ h).2 hoff)
  case enabled => exact fireNmi_of_enabled hh ((and_lineBit_eq_zero_iff _ h).not.2 (Bool.ne_false_iff.2 hon))

/-- Settles O8: the step and the NMI request both test the halt. -/
theorem haltedEngineDoesNothing : Obligations.HaltedEngineDoesNothing := fun _ hh =>
  ⟨fun hv => step_halted hv hh, fun line => fireNmi_of_halted line hh⟩

end Sys2Proof.Machine
end

section
/-! The priority table and the two entries (R265, R266, R270, R271). -/

namespace Sys2Proof.Machine

/-! The priority table. -/

/-- The top line of a mask is that of its highest set bit (R271). -/
theorem topLine_eq_some {m : Word} {h : Nat} (hh : h < 16) (hset : m.getLsbD h = true)
    (hclear : ∀ j, h < j → m.getLsbD j = false) : topLine m = some (15 - h) := by
  refine List.find?_range_eq_some.2 ⟨?_, List.mem_range.2 (by omega), fun k hk => ?_⟩
  · rw [Nat.sub_sub_self (by omega), hset]
  · rw [hclear (15 - k) (by omega), Bool.not_false]

theorem pri_of_topLine {p : Params} {m : Word} {k : Nat} (h : topLine m = some k) : pri p m = vec p k := by
  rw [pri, h]

/-- Settles O18: the first line found is the highest bit's, and the mask 0 has none. -/
theorem highestPendingBitSelectsVector : Obligations.HighestPendingBitSelectsVector :=
  fun _ => ⟨fun _ _ hh hset hclear => pri_of_topLine (topLine_eq_some hh hset hclear), rfl⟩

/-! The static ROM, where the NMI vector lies (R73, R76). -/

theorem static_lt_imageLen {p : Params} {a : Word} (hv : p.valid = true) (h' : a.toNat ≤ 0xFFFD) :
    a.toNat - 0xC000 < p.imageLen := by
  have hlen : 0x4000 ≤ p.imageLen := staticRom_le_imageLen hv
  omega

theorem hasByte_static {s : State} {a : Word} (hv : s.params.valid = true) (h : 0xC000 ≤ a.toNat)
    (h' : a.toNat ≤ 0xFFFD) : hasByte s a = true := by
  unfold hasByte
  rw [decodeAddr_static h h']
  exact decide_eq_true (static_lt_imageLen hv h')

theorem peek_static {s : State} {a : Word} (hv : s.params.valid = true) (h : 0xC000 ≤ a.toNat)
    (h' : a.toNat ≤ 0xFFFD) : peek s a = Memory.get s.params.image (a.toNat - 0xC000) := by
  rw [peek_rom (decodeAddr_static h h'), imageByte_of_lt (static_lt_imageLen hv h')]

theorem busRead16_nmiVector {s : State} (hv : s.params.valid = true) : (busRead16 s nmiVector).1 =
    wordOf (Memory.get s.params.image 0x3FFB) (Memory.get s.params.image 0x3FFA) := by
  rw [busRead16_fst nmiVector (hasByte_static hv (by decide) (by decide)),
    peek_static hv (by decide) (by decide), peek_static hv (by decide) (by decide)]
  rfl

/-! The entries. -/

/-- Settles O14: the frame of an IRQ entry, where no BRK adds no break bit. -/
theorem irqEntryPushesAndVectors : Obligations.IrqEntryPushesAndVectors := by
  intro s fromBreak
  obtain ⟨acc, hirq⟩ := sameButAccess_irq fromBreak s
  refine ⟨acc, hirq.trans ?_⟩
  cases fromBreak with
  | true => rfl
  | false => simp only [Bool.false_eq_true, ↓reduceIte, BitVec.or_zero]; rfl

/-- Everything an NMI entry does (R265). -/
theorem sameButAccess_nmi {s : State} (hv : s.params.valid = true) : SameButAccess
    { s with
      ram := ((s.ram.set (0x100 + s.sp.toNat) (hiByte s.pc)).set (0x100 + (s.sp - 1).toNat) (loByte s.pc)).set
        (0x100 + (s.sp - 2).toNat) (statusByte s.flags)
      sp := s.sp - 3
      pc := wordOf (Memory.get s.params.image 0x3FFB) (Memory.get s.params.image 0x3FFA) } (nmi s) := by
  obtain ⟨m, hpush⟩ := sameButAccess_push_pushWord (statusByte s.flags) s.pc s
  have hv' : (push (statusByte s.flags) (pushWord s.pc s)).params.valid = true := by rw [hpush]; exact hv
  obtain ⟨acc, hread⟩ : SameButAccess (push (statusByte s.flags) (pushWord s.pc s)) (busRead16 _ nmiVector).2 :=
    sameButAccess_busRead16 (hasByte_static hv' (by decide) (by decide)) (hasByte_static hv' (by decide) (by decide))
  refine ⟨acc, ?_⟩
  rw [nmi, enterInterrupt_eq, busRead16_nmiVector hv', hread, hpush, pushWord_ram]
  rfl

/-- Settles O15: the frame of an NMI entry, and bits 4 and 5 of the status byte. -/
theorem nmiEntryPushesAndVectors : Obligations.NmiEntryPushesAndVectors := by
  intro s hv
  obtain ⟨acc, hnmi⟩ := sameButAccess_nmi hv
  refine ⟨acc, hnmi, ?_, ?_⟩
  all_goals
    rw [getLsbD_statusByte s.flags (by decide)]
    simp

end Sys2Proof.Machine
end

section
/-! The step (R260 to R262, R267): the gate, the fetch of one instruction or of an undefined opcode, and the charge. -/

namespace Sys2Proof.Machine

/-! The fetch: it answers an instruction exactly where the instruction's encoding is fetched. -/

theorem fetchBytes_of_fetchInstr {s t : State} {i : Instr} (h : fetchInstr s = .instr i t) :
    fetchBytes i.length s = (encode i, t) := by
  have hlen : i.length = (encode i).length := Nat.add_comm 1 _
  obtain ⟨_, hf⟩ | ⟨row, j, hrow, hforms⟩ := fetchInstr_cases s
  · rw [hf] at h; cases h
  obtain ⟨hmem, hop⟩ := findRow_eq_some_iff.1 hrow
  have henc := encode_of_mem_opTable row hmem
  obtain ⟨hform, hf⟩ | ⟨mk, hform, rfl, hf⟩ | ⟨mk, hform, rfl, hf⟩ := hforms <;>
    rw [hf] at h <;> cases h <;> rw [hform] at henc
  · rw [hlen, henc _ _ (.f1 _), hop]; rfl
  · rw [hlen, henc _ _ (.f2 mk _), hop]; rfl
  · rw [hlen, henc _ _ (.f3 mk _), hop, hiByte_wordOf, loByte_wordOf]; rfl

theorem fetchInstr_of_fetchBytes {s t : State} {i : Instr} (h : fetchBytes i.length s = (encode i, t)) :
    fetchInstr s = .instr i t := by
  obtain ⟨⟨_, _, form⟩, hrow, henc⟩ := findRow_opcode i
  rw [Instr.length, Nat.add_comm, fetchBytes_succ, encode] at h
  generalize i.mode.operandBytes = ops at henc h
  obtain ⟨hbytes, hstate⟩ := Prod.mk.inj h
  obtain ⟨hop, hops⟩ := List.cons.inj hbytes
  unfold fetchInstr
  dsimp only
  rw [hop, hrow]
  cases henc with
  | f1 => exact congrArg (Fetched.instr i) hstate
  | f2 mk d =>
    obtain ⟨hd, _⟩ := List.cons.inj hops
    exact congrArg₂ Fetched.instr (congrArg mk hd) hstate
  | f3 mk a =>
    obtain ⟨hlo, hrest⟩ := List.cons.inj hops
    obtain ⟨hhi, _⟩ := List.cons.inj hrest
    have ha := (congrArg₂ wordOf hhi hlo).trans (wordOf_hiByte_loByte a)
    exact congrArg₂ Fetched.instr (congrArg mk ha) hstate

theorem fetchInstr_of_undefined {s : State} (h : peek s s.pc ∈ undefinedBytes) :
    fetchInstr s = .undefinedOpcode (peek s s.pc) (fetch8 s).2 := by
  obtain ⟨_, hf⟩ | ⟨_, _, hrow, _⟩ := fetchInstr_cases s
  · exact hf
  · have hnone := findRow_eq_none_iff.2 ((mem_undefinedBytes_iff _).1 h)
    rw [hnone] at hrow
    cases hrow

/-! One instruction. -/

theorem runInstruction_of_instr {s t : State} {i : Instr} (h : fetchInstr s = .instr i t) :
    runInstruction s = afterExec i (exec i t) := by
  rw [runInstruction, h]

theorem runInstruction_of_undefined {s : State} (h : peek s s.pc ∈ undefinedBytes) :
    runInstruction s = .next (invalidOperation (peek s s.pc) s.pc (fetch8 s).2) := by
  rw [runInstruction, fetchInstr_of_undefined h]

/-- Settles O5: bytes that decode to the instruction are its encoding, and that is what the step fetches. -/
theorem stepRunsTheDecodedInstruction : Obligations.StepRunsTheDecodedInstruction := by
  intro s t i bs hv hh hfetch hdecode
  have hbs : bs = encode i := (encodeOfDecodeIsIdentity bs [] i hdecode).trans (List.append_nil _)
  subst hbs
  rw [step_running hv hh, runInstruction_of_instr (fetchInstr_of_fetchBytes hfetch)]

/-- The gate and the fetch of an instruction charge nothing and do not halt (D8). -/
theorem fetchInstr_irqGate_keeps (s : State) : (fetchInstr (irqGate s)).after.cycles = s.cycles ∧
    (fetchInstr (irqGate s)).after.halted = s.halted := by
  obtain ⟨hhalted, _, _, _, _, _, hcycles⟩ := ((irqGate_writesOnly s).trans (fetchInstr_writesOnly _)).keeps
  exact ⟨hcycles, hhalted⟩

/-- Settles O7: the fetch of the one byte, and the record of the halt. -/
theorem undefinedOpcodeHaltsTheEngine : Obligations.UndefinedOpcodeHaltsTheEngine := by
  intro s hv hh hop
  obtain ⟨hcycles, _⟩ := fetchInstr_irqGate_keeps s
  rw [fetchInstr_of_undefined hop] at hcycles
  refine ⟨_, (step_running hv hh).trans (runInstruction_of_undefined hop), rfl, rfl, rfl, rfl, hcycles, ?_⟩
  exact congrArg (State.setHalt · true _ _) (sameButReads_fetch8 (irqGate s))

/-- Settles O10: the two ways of a step that is not halted, and that only the charge writes the budget. -/
theorem stepChargesTheTableCost : Obligations.StepChargesTheTableCost := by
  intro s t hh hstep
  obtain ⟨hcycles, hhalted⟩ := fetchInstr_irqGate_keeps s
  obtain ⟨_, ⟨hh', _⟩ | ⟨_, hrun⟩⟩ := step_cases hstep
  · rw [hh] at hh'; cases hh'
  obtain ⟨op, s1, hf, rfl⟩ | ⟨i, s1, u, hf, hexec, rfl⟩ := runInstruction_cases hrun <;>
    rw [hf] at hcycles hhalted
  · exact .inl ⟨rfl, hcycles⟩
  · obtain ⟨hhalted', _, _, _, _, _, hcycles'⟩ := (exec_writesOnly hexec).keeps
    refine .inr ⟨hhalted'.trans (hhalted.trans hh), i, ?_, ?_⟩
    · have hdecode := decodeOfEncodeIsIdentity i []
      rw [List.append_nil] at hdecode
      rwa [fetchBytes_of_fetchInstr hf]
    · exact congrArg (· - (i.cycles : Int)) (hcycles'.trans hcycles)

/-! The gate (R267). -/

theorem irqGate_of_open {s : State} (hi : s.flags.i = false) (hp : irqPend s ≠ 0#16) : irqGate s = irq false s := by
  unfold irqGate irqGateOpen
  simp [hi, hp]

theorem irqGate_of_closed {s : State} (h : s.flags.i = true ∨ irqPend s = 0#16) : irqGate s = s := by
  unfold irqGate irqGateOpen
  obtain h | h := h <;> simp [h]

/-- After an entry the gate is closed: the entry has set `I`. -/
theorem irqGate_irq (fromBreak : Bool) (s : State) : irqGate (irq fromBreak s) = irq fromBreak s :=
  irqGate_of_closed (.inl rfl)

theorem step_irq {s : State} (fromBreak : Bool) (hv : s.params.valid = true) (hh : s.halted = false) :
    step (irq fromBreak s) = runInstruction (irq fromBreak s) := by
  obtain ⟨acc, hirq⟩ := sameButAccess_irq fromBreak s
  have hv' : (irq fromBreak s).params.valid = true := by rw [hirq]; exact hv
  have hh' : (irq fromBreak s).halted = false := by rw [hirq]; exact hh
  rw [step_running hv' hh', irqGate_irq]

/-- Settles O13: the gate's two cases, and that an entry closes it. -/
theorem openIrqGateEntersTheHandlerFirst : Obligations.OpenIrqGateEntersTheHandlerFirst := by
  refine fun s hv hh => ⟨fun hi hp => ?opened, fun hclosed => ?closed⟩
  case opened =>
    have hstep : step s = runInstruction (irq false s) := by rw [step_running hv hh, irqGate_of_open hi hp]
    exact ⟨hstep, hstep.trans (step_irq false hv hh).symm⟩
  case closed => rw [step_running hv hh, irqGate_of_closed hclosed]

end Sys2Proof.Machine
end

section
/-! The EEPROM's one entry point, `update` (R311), by its cases: every powered call is an edge in the state whose levels
and violation flag it has stored first, and each kind of edge has one rule (R312 to R318, R325). -/

namespace Sys2Proof.Machine

/-- Shift a bit in at the low end (R317). -/
def shiftIn (d : Bool) (b : Byte) : Byte := b <<< 1 ||| (if d then 1#8 else 0#8)

theorem getLsbD_shiftIn (d : Bool) (b : Byte) (k : Nat) :
    (shiftIn d b).getLsbD k = (decide (k < 8) && if k = 0 then d else b.getLsbD (k - 1)) := by
  unfold shiftIn
  cases d <;> cases k <;> simp

/-- Shifting in is doubling and adding, modulo 256. -/
theorem shiftIn_eq_ofNat (d : Bool) (b : Byte) : shiftIn d b = BitVec.ofNat 8 (2 * b.toNat + d.toNat) := by
  revert d b
  decide

/-- What a powered call stores before its edges: the levels (D24), and the violation flag where both have changed
(R314). -/
def eeNote (clock data : Bool) (e : Eeprom) : Eeprom :=
  { e with
    lastPow := true
    lastClk := clock
    lastData := data
    violation := e.violation || (e.lastClk != clock && e.lastData != data) }

section
variable (w : Nat) {e : Eeprom}

/-- A powered call, with edges or without (R313 to R319, R325). -/
theorem eeUpdate_powered (c d : Bool) (e : Eeprom) :
    eeUpdate w true c d e = eeEdge w e.lastClk e.lastData c d (eeNote c d e) := by
  obtain ⟨_, _, _, _, _, _, _, lastClk, lastData, _, _, _, _⟩ := e
  cases lastClk <;> cases lastData <;> cases c <;> cases d <;> simp [eeUpdate, eeEdge, eeNote]

/-- R312. -/
theorem eeUpdate_unpowered (c d : Bool) (e : Eeprom) : eeUpdate w false c d e =
    { e with mode := .disabled, output := true, lastPow := false, lastClk := c, lastData := d } := rfl

/-- R315, START. -/
theorem eeUpdate_start (hd : e.lastData = true) : eeUpdate w true true false e = eeStart (eeNote true false e) := by
  simp [eeUpdate_powered, eeEdge, hd]

/-- R315, STOP. -/
theorem eeUpdate_stop (hd : e.lastData = false) : eeUpdate w true true true e = eeStop (eeNote true true e) := by
  simp [eeUpdate_powered, eeEdge, hd]

/-- R313, R325: with the clock level unchanged, nothing happens but for a data edge with the clock high. -/
theorem eeUpdate_quiet {c d : Bool} (hc : e.lastClk = c) (hd : c = true → e.lastData = d) :
    eeUpdate w true c d e = eeNote c d e := by
  rw [eeUpdate_powered]
  cases c <;> simp_all [eeEdge]

/-- R325: a data edge with the clock low. -/
theorem eeUpdate_clockLow {d : Bool} (hc : e.lastClk = false) : eeUpdate w true false d e = eeNote false d e :=
  eeUpdate_quiet w hc fun h => absurd h Bool.false_ne_true

/-- R316. -/
theorem eeUpdate_disabled {c d : Bool} (hm : e.mode = .disabled) (hd : c = true → e.lastData = d) :
    eeUpdate w true c d e = eeNote c d e := by
  rw [eeUpdate_powered]
  cases c <;> simp_all [eeEdge, eeNote]

/-- R317. -/
theorem eeUpdate_rise {d : Bool} (hm : e.mode ≠ .disabled) (hc : e.lastClk = false) (hd : e.lastData = d) :
    eeUpdate w true true d e = eeClockRise d (eeNote true d e) := by
  simp [eeUpdate_powered, eeEdge, eeNote, hm, hc, hd]

/-- R318, R319; a data edge in the same call changes nothing but the violation flag (D25). -/
theorem eeUpdate_fall {d : Bool} (hm : e.mode ≠ .disabled) (hc : e.lastClk = true) :
    eeUpdate w true false d e = eeClockFall w (eeNote false d e) := by
  simp [eeUpdate_powered, eeEdge, eeNote, hm, hc]

end

/-- Everything a call of `update` can do, by its arguments and its result (R311). -/
inductive EeOutcome (w : Nat) (e : Eeprom) : Bool → Bool → Bool → Eeprom → Prop
  | off (c d : Bool) : EeOutcome w e false c d
      { e with mode := .disabled, output := true, lastPow := false, lastClk := c, lastData := d }
  | start (hd : e.lastData = true) : EeOutcome w e true true false (eeStart (eeNote true false e))
  | stop (hd : e.lastData = false) : EeOutcome w e true true true (eeStop (eeNote true true e))
  | quiet (c d : Bool) : EeOutcome w e true c d (eeNote c d e)
  | rise (d : Bool) : EeOutcome w e true true d (eeClockRise d (eeNote true d e))
  | fall (d : Bool) (hc : e.lastClk = true) : EeOutcome w e true false d (eeClockFall w (eeNote false d e))

theorem eeUpdate_outcome (w : Nat) (p c d : Bool) (e : Eeprom) : EeOutcome w e p c d (eeUpdate w p c d e) := by
  cases p with
  | false => exact .off c d
  | true =>
    by_cases hdata : c = true ∧ e.lastData ≠ d
    · obtain ⟨rfl, hd⟩ := hdata
      cases d with
      | false => rw [eeUpdate_start w (by simpa using hd)]; exact .start (by simpa using hd)
      | true => rw [eeUpdate_stop w (by simpa using hd)]; exact .stop (by simpa using hd)
    · have hd : c = true → e.lastData = d := fun hc => by_contra fun hne => hdata ⟨hc, hne⟩
      by_cases hm : e.mode = .disabled
      · rw [eeUpdate_disabled w hm hd]; exact .quiet c d
      by_cases hc : e.lastClk = c
      · rw [eeUpdate_quiet w hc hd]; exact .quiet c d
      cases c with
      | false =>
        have hc : e.lastClk = true := by simpa using hc
        rw [eeUpdate_fall w hm hc]; exact .fall d hc
      | true => rw [eeUpdate_rise w hm (by simpa using hc) (hd rfl)]; exact .rise d

/-- Settles O35: the unpowered call, and the call without an edge. -/
theorem eepromPowerAndIdle : Obligations.EepromPowerAndIdle := fun w e =>
  ⟨fun c d => eeUpdate_unpowered w c d e, by
    rw [eeUpdate_quiet w rfl fun _ => rfl]
    simp [eeNote]⟩

/-- Settles O36: START and STOP, in the state that the call has noted. -/
theorem eepromStartAndStop : Obligations.EepromStartAndStop := by
  refine fun w e => ⟨fun hd => ?start, fun hd => ?stop⟩
  case start => rw [eeUpdate_start w hd]; simp [eeStart, eeNote, hd]
  case stop => rw [eeUpdate_stop w hd]; simp [eeStop, eeNote, hd]

/-- Settles O37: the rules of the clock edges and of what is no edge for the device. -/
theorem eepromClockEdges : Obligations.EepromClockEdges := by
  refine fun w e d => ⟨fun hm hc hd => ?rise, fun hm hb hc => ?fall, fun hc => ?low, fun hm c hd => ?disabled,
    fun hm hc => ?disabledFall⟩
  case rise =>
    rw [eeUpdate_rise w hm hc hd, ← shiftIn_eq_ofNat]
    simp [eeClockRise, eeNote, shiftIn, hd]
  case fall =>
    have hout : e.out <<< 1 = BitVec.ofNat 8 (2 * e.out.toNat) := by
      rw [BitVec.shiftLeft_eq_mul_twoPow]
      bv_omega
    rw [eeUpdate_fall w hm hc, eeClockFall, if_pos (show (eeNote false d e).bits < 8 from hb), ← hout]
    simp [eeShiftOut, eeNote, hc, BitVec.msb_eq_getLsbD_last]
  case low =>
    rw [eeUpdate_clockLow w hc]
    simp [eeNote, hc]
  case disabled =>
    rw [eeUpdate_disabled w hm fun _ => hd]
    simp [eeNote, hd]
  case disabledFall =>
    rw [eeUpdate_disabled w hm fun h => absurd h Bool.false_ne_true]
    simp [eeNote, hc]

end Sys2Proof.Machine
end

section
/-! The EEPROM's clock fall, by what it finds (R318 to R324), and what a call may do to the array and the saves. -/

namespace Sys2Proof.Machine

/-- A byte of command class 0xA (D21) is one whose high nibble is 0xA. -/
theorem and_F0_eq_A0_iff (b : Byte) : b &&& 0xF0#8 = 0xA0#8 ↔ b.toNat / 16 = 0xA := by
  revert b
  decide

theorem getLsbD_zero_eq_false_iff (b : Byte) : b.getLsbD 0 = false ↔ b.toNat % 2 = 0 := by
  rw [BitVec.getLsbD, Nat.testBit_zero, decide_eq_false_iff_not]
  omega

theorem eeAddressBytes_le_iff (w n : Nat) : eeAddressBytes w ≤ n ↔ w ≤ 8 * n := by
  unfold eeAddressBytes
  omega

section
variable (w : Nat) {e : Eeprom}

/-- R318. -/
theorem eeClockFall_shift (h : e.bits < 8) : eeClockFall w e = eeShiftOut e := if_pos h

/-- R319. -/
theorem eeClockFall_dispatch (h : e.bits = 8) : eeClockFall w e = eeDispatch w e := if_neg (by omega)

/-- R320: a write command asks for the address. -/
theorem eeDispatch_writeCommand (hm : e.mode = .command) (h : e.inp.toNat / 16 = 0xA) (h0 : e.inp.toNat % 2 = 0) :
    eeDispatch w e = eeAcknowledge false { e with mode := .address, addr := 0, bytes := 0 } := by
  simp only [eeDispatch, hm]
  rw [eeDispatchCommand, if_pos ((and_F0_eq_A0_iff _).2 h), if_pos ((getLsbD_zero_eq_false_iff _).2 h0)]

/-- R320: a read command loads the first byte. -/
theorem eeDispatch_readCommand (hm : e.mode = .command) (h : e.inp.toNat / 16 = 0xA) (h0 : e.inp.toNat % 2 = 1) :
    eeDispatch w e = eeAcknowledge false { eeLoadOutput w e with mode := .read } := by
  simp only [eeDispatch, hm]
  rw [eeDispatchCommand, if_pos ((and_F0_eq_A0_iff _).2 h), if_neg (mt (getLsbD_zero_eq_false_iff _).1 (by omega))]

/-- R320: any other command byte is not acknowledged. -/
theorem eeDispatch_otherCommand (hm : e.mode = .command) (h : e.inp.toNat / 16 ≠ 0xA) :
    eeDispatch w e = eeAcknowledge true { e with mode := .disabled } := by
  simp only [eeDispatch, hm]
  rw [eeDispatchCommand, if_neg (mt (and_F0_eq_A0_iff _).1 h)]

theorem eeDispatch_address (hm : e.mode = .address) : eeDispatch w e = eeDispatchAddress w e := by
  simp only [eeDispatch, hm]

theorem eeDispatch_read (hm : e.mode = .read) : eeDispatch w e = eeDispatchRead w e := by
  simp only [eeDispatch, hm]

theorem eeDispatch_write (hm : e.mode = .write) : eeDispatch w e = eeDispatchWrite w e := by
  simp only [eeDispatch, hm]

/-- A dispatch emits no save event, and stores in WRITE alone (R323, R326). -/
theorem eeDispatch_frame : (eeDispatch w e).saves = e.saves ∧
    ((eeDispatch w e).array = e.array ∨ e.mode = .write ∧ (eeDispatch w e).array = e.array.set e.addr e.inp) := by
  cases hm : e.mode with
  | disabled => rw [eeDispatch, hm]; exact ⟨rfl, .inl rfl⟩
  | command =>
    rw [eeDispatch, hm]
    dsimp only
    unfold eeDispatchCommand
    split
    · split <;> exact ⟨rfl, .inl rfl⟩
    · exact ⟨rfl, .inl rfl⟩
  | address => rw [eeDispatch_address w hm]; exact ⟨rfl, .inl rfl⟩
  | read => rw [eeDispatch_read w hm]; exact ⟨rfl, .inl rfl⟩
  | write => rw [eeDispatch_write w hm]; exact ⟨rfl, .inr ⟨rfl, rfl⟩⟩

end

/-- The clock fall that finds a full byte dispatches it, by a state that is not DISABLED (R319). -/
theorem eeUpdate_dispatch (w : Nat) {e : Eeprom} {d : Bool} (hm : e.mode ≠ .disabled) (hc : e.lastClk = true)
    (hb : e.bits = 8) : eeUpdate w true false d e = eeDispatch w (eeNote false d e) :=
  (eeUpdate_fall w hm hc).trans (eeClockFall_dispatch w hb)

/-- Settles O38: the dispatch of each state, in the state that the call has noted. -/
theorem eepromByteDispatch : Obligations.EepromByteDispatch := by
  intro w e d hc hb u base
  have hu {m : EeMode} (hm : e.mode = m) (hne : m ≠ .disabled) : u = eeDispatch w (eeNote false d e) :=
    eeUpdate_dispatch w (hm ▸ hne) hc hb
  have hbase : base = { eeNote false d e with bits := 0, output := false } := by simp [base, eeNote, hc]
  rw [hbase]
  refine ⟨fun hm h h0 => (hu hm (by decide)).trans ?writeCommand,
    fun hm h h0 => (hu hm (by decide)).trans ?readCommand, fun hm h => (hu hm (by decide)).trans ?otherCommand,
    fun hm => (hu hm (by decide)).trans ?address, fun hm => (hu hm (by decide)).trans ?read,
    fun hm => (hu hm (by decide)).trans ?write⟩
  case writeCommand => exact eeDispatch_writeCommand (e := eeNote false d e) w hm h h0
  case readCommand => exact eeDispatch_readCommand (e := eeNote false d e) w hm h h0
  case otherCommand => exact eeDispatch_otherCommand (e := eeNote false d e) w hm h
  case address =>
    simp only [← eeAddressBytes_le_iff]
    exact eeDispatch_address (e := eeNote false d e) w hm
  case read => exact eeDispatch_read (e := eeNote false d e) w hm
  case write => exact eeDispatch_write (e := eeNote false d e) w hm

/-- Settles O39: of the outcomes of a call a dispatch alone stores, and a STOP alone saves. -/
theorem eepromArrayAndSaveEvents : Obligations.EepromArrayAndSaveEvents := by
  intro w e p c d hb
  have houtcome := eeUpdate_outcome w p c d e
  generalize eeUpdate w p c d e = u at houtcome ⊢
  cases houtcome with
  | off c d | start hd | quiet c d | rise d => exact ⟨.inl rfl, .inl rfl⟩
  | stop hd =>
    refine ⟨.inl rfl, ?_⟩
    by_cases hm : e.mode = .write
    · exact .inr ⟨hm, rfl, rfl, hd, rfl, if_pos hm⟩
    · exact .inl (if_neg hm)
  | fall d hc =>
    obtain hlt | h8 := Nat.lt_or_eq_of_le hb
    · rw [eeClockFall_shift w (show (eeNote false d e).bits < 8 from hlt)]
      exact ⟨.inl rfl, .inl rfl⟩
    · rw [eeClockFall_dispatch w (show (eeNote false d e).bits = 8 from h8)]
      obtain ⟨hsaves, harray⟩ := eeDispatch_frame w (e := eeNote false d e)
      exact ⟨harray.imp_right fun ⟨hm, hset⟩ => ⟨hm, h8, rfl, hc, rfl, hset⟩, .inl hsaves⟩

end Sys2Proof.Machine
end

section
/-! Port B bit by bit (R301, R304), and `reset()` (R341). -/

namespace Sys2Proof.Machine

/-- A pin that is an input carries 1, but the EEPROM's data pin carries `ee_output` (R304). -/
theorem getLsbD_inputPins (output : Bool) (bit k : Nat) (hk : k < 8) :
    (if output then 0xFF#8 else ~~~ (1#8 <<< bit)).getLsbD k = if k = bit then output else true := by
  cases output with
  | true =>
    rw [if_pos rfl, show 0xFF#8 = BitVec.allOnes 8 from rfl, BitVec.getLsbD_allOnes, ite_self]
    exact decide_eq_true hk
  | false =>
    have hbit : (1#8 <<< bit).getLsbD k = decide (k = bit) := by
      rw [← BitVec.twoPow_eq, BitVec.getLsbD_twoPow]
      by_cases h : k = bit
      · simp [← h, hk]
      · simp [h, Ne.symm h]
    rw [if_neg Bool.false_ne_true, BitVec.getLsbD_not, hbit]
    by_cases h : k = bit <;> simp [h, hk]

/-- Settles O34: of a data bit and an input bit the direction bit selects one. -/
theorem portBLevels : Obligations.PortBLevels := by
  intro s k hk
  constructor
  · rw [portBLines, BitVec.getLsbD_or, BitVec.getLsbD_and, BitVec.getLsbD_not]
    cases (regByte s s.params.regPbDir).getLsbD k <;> simp [hk]
  · rw [portBPins, BitVec.getLsbD_or, BitVec.getLsbD_and, BitVec.getLsbD_and, BitVec.getLsbD_not,
      getLsbD_inputPins _ _ _ hk]
    cases (regByte s s.params.regPbDir).getLsbD k <;> simp [hk]

/-- The reset vector is the image word behind 0xFFFC (R73, R76). -/
theorem busRead16_resetVector {s : State} (hv : s.params.valid = true) : (busRead16 s resetVector).1 =
    wordOf (Memory.get s.params.image 0x3FFD) (Memory.get s.params.image 0x3FFC) := by
  rw [busRead16_fst resetVector (hasByte_static hv (by decide) (by decide)),
    peek_static hv (by decide) (by decide), peek_static hv (by decide) (by decide)]
  rfl

/-- Settles O24: the two vector reads leave nothing but access flags. -/
theorem resetClearsTheCpu : Obligations.ResetClearsTheCpu := by
  intro s hv
  have hpc := busRead16_resetVector hv
  refine ⟨?frame, fun hlo hhi => ?vector⟩
  case frame =>
    obtain ⟨acc, hread⟩ : SameButAccess s (busRead16 s resetVector).2 :=
      sameButAccess_busRead16 (hasByte_static hv (by decide) (by decide)) (hasByte_static hv (by decide) (by decide))
    refine ⟨acc, ?_⟩
    simp only [cpuReset, hpc, hread]
    rfl
  case vector =>
    have hreset : (cpuReset s).pc = (busRead16 s resetVector).1 := rfl
    rw [hreset, hpc, hlo, hhi]
    rfl

end Sys2Proof.Machine
end

section
/-! The cycle budget (R33, R361) is among what a step does not read. -/

namespace Sys2Proof.Machine

/-- `t` is `s` with `k` more cycles in its budget. -/
def MoreCycles (k : Int) (s t : State) : Prop := t = s.setCycles (s.cycles + k)

theorem regWrite_setCycles (s : State) (k : Int) (r v : Byte) :
    regWrite (s.setCycles k) r v = (regWrite s r v).setCycles k := by
  unfold regWrite
  rw [State.setCycles_params]
  split
  · rfl
  · split <;> rfl

theorem writeCell_setCycles (s : State) (k : Int) (a : Word) (v : Byte) :
    writeCell (s.setCycles k) a v = (writeCell s a v).setCycles k := by
  unfold writeCell
  rw [decodeAddr_setCycles]
  cases decodeAddr s a with
  | reg r => exact regWrite_setCycles s k r v
  | ram | disp | rom | vectorLow | vectorHigh => rfl

theorem busWrite_setCycles (s : State) (k : Int) (a : Word) (v : Byte) :
    busWrite (s.setCycles k) a v = (busWrite s a v).setCycles k := writeCell_setCycles (markAccess 2 s a) k a v

theorem busRead_setCycles (s : State) (k : Int) (a : Word) :
    (busRead (s.setCycles k) a).2 = (busRead s a).2.setCycles k := by
  rw [busRead_snd, busRead_snd]
  rfl

/-- The CPU cannot tell states apart that differ in their budgets, and every primitive operation keeps that. -/
theorem indistinguishable_moreCycles (n : Int) : Indistinguishable (MoreCycles n) where
  field := by rintro s _ rfl p; cases p <;> rfl
  peek := by rintro s _ rfl a; rfl
  irqPend := by rintro s _ rfl; rfl
  halted := by rintro s _ rfl; rfl
  params := by rintro s _ rfl; rfl
  read := by
    rintro s _ rfl a
    rw [MoreCycles, busRead_setCycles, busRead_cycles]
  write := by
    rintro s _ rfl a v
    rw [MoreCycles, busWrite_setCycles, busWrite_cycles_eq]
  set := by rintro s _ rfl p w; cases p <;> rfl
  charge := by
    rintro s _ rfl k
    show s.setCycles (s.cycles + n - k) = s.setCycles (s.cycles - k + n)
    rw [sub_add_eq_add_sub]
  halt := by rintro s _ rfl op a; rfl

/-- Settles O11: a step keeps every difference that the CPU cannot tell, here that of the two budgets. -/
theorem stepIgnoresTheCycleBudget : Obligations.StepIgnoresTheCycleBudget := by
  intro s t k hstep
  have hstart : MoreCycles (k - s.cycles) s (s.setCycles k) := by
    rw [MoreCycles, add_sub_cancel]
  have halike := step_alike (indistinguishable_moreCycles _) hstart
  rw [hstep] at halike
  generalize step (s.setCycles k) = x at halike ⊢
  cases halike with
  | next h =>
    rw [MoreCycles] at h
    rw [h, add_comm k, sub_add_eq_add_sub, add_sub_assoc]

end Sys2Proof.Machine
end

section
/-! Runs of bytes in the EEPROM's array, from an address upwards and around the capacity (R322, R323). -/

namespace Sys2Proof.Machine

/-- The address after `x`, masked to the capacity: `eeNextAddr` as a function of the address alone. -/
def eeAddrSucc (w x : Nat) : Nat := (x + 1) % eeSize w

/-- The array with bytes stored from address `x` on. -/
def storeRun (w : Nat) : Nat → List Byte → Memory → Memory
  | _, [], m => m
  | x, v :: vs, m => storeRun w (eeAddrSucc w x) vs (m.set x v)

/-- The `n` bytes from address `x` on. -/
def loadRun (w : Nat) (m : Memory) : Nat → Nat → List Byte
  | _, 0 => []
  | x, n + 1 => m.get x :: loadRun w m (eeAddrSucc w x) n

theorem eeNextAddr_of_addr (w : Nat) {e : Eeprom} {x : Nat} (h : e.addr = x) : eeNextAddr w e = eeAddrSucc w x :=
  congrArg (eeAddrSucc w) h

theorem eeAddrSucc_lt (w x : Nat) : eeAddrSucc w x < eeSize w := Nat.mod_lt _ (eeSize_pos w)

theorem eeAddrSucc_add_mod (w x k : Nat) : (eeAddrSucc w x + k) % eeSize w = (x + (k + 1)) % eeSize w := by
  rw [eeAddrSucc, Nat.mod_add_mod, Nat.add_assoc, Nat.add_comm 1 k]

/-- Less than a whole turn does not come back. -/
theorem add_mod_ne_self {x k n : Nat} (hx : x < n) (hk : 0 < k) (hkn : k < n) : (x + k) % n ≠ x := by
  obtain hlt | hge := Nat.lt_or_ge (x + k) n
  · rw [Nat.mod_eq_of_lt hlt]; omega
  · rw [Nat.mod_eq_sub_mod hge, Nat.mod_eq_of_lt (by omega)]; omega

theorem get_storeRun_other {w x j : Nat} {vs : List Byte} {m : Memory} (hx : x < eeSize w)
    (h : ∀ k < vs.length, (x + k) % eeSize w ≠ j) : Memory.get (storeRun w x vs m) j = Memory.get m j := by
  induction vs generalizing x m with
  | nil => rfl
  | cons v vs ih =>
    have hne : j ≠ x := by
      have h0 := h 0 (Nat.succ_pos _)
      rw [Nat.add_zero, Nat.mod_eq_of_lt hx] at h0
      exact h0.symm
    have htail : ∀ k < vs.length, (eeAddrSucc w x + k) % eeSize w ≠ j := by
      intro k hk
      rw [eeAddrSucc_add_mod]
      exact h (k + 1) (Nat.succ_lt_succ hk)
    rw [storeRun, ih (eeAddrSucc_lt w x) htail, Memory_get_set_other hne]

/-- Loading what was stored, up to a capacity's worth of it. -/
theorem loadRun_storeRun {w x : Nat} {vs : List Byte} {m : Memory} (hx : x < eeSize w) (hlen : vs.length ≤ eeSize w)
    (hm : Memory.wf (eeSize w) m = true) : loadRun w (storeRun w x vs m) x vs.length = vs := by
  induction vs generalizing x m with
  | nil => rfl
  | cons v vs ih =>
    have hlen' : vs.length + 1 ≤ eeSize w := hlen
    have hfirst : Memory.get (storeRun w (eeAddrSucc w x) vs (m.set x v)) x = v := by
      rw [get_storeRun_other (eeAddrSucc_lt w x), Memory_get_set_same hm]
      intro k hk
      rw [eeAddrSucc_add_mod]
      exact add_mod_ne_self hx (Nat.succ_pos k) (by omega)
    rw [storeRun, List.length_cons, loadRun, hfirst, ih (eeAddrSucc_lt w x) (by omega) (Memory_set_wf hx hm)]

end Sys2Proof.Machine
end

section
/-! The bits of an EEPROM session (R328): a byte's transfer begins and ends with the clock low and one fall counted, the
fall that ended the byte (or the START) before it. -/

namespace Sys2Proof.Machine

/-- What a session goes by, with the clock low: the state, the array, the address, the address bytes taken so far, and
the falls counted. -/
structure EeAt (m : EeMode) (array : Memory) (addr bytes bits : Nat) (e : Eeprom) : Prop where
  clock : e.lastClk = false
  mode : e.mode = m
  array : e.array = array
  addr : e.addr = addr
  bytes : e.bytes = bytes
  bits : e.bits = bits

/-- With the data line high, the device shows bit `n` of `b`, the most significant first, and has shifted it out. -/
structure EeOffers (b : Byte) (n : Nat) (e : Eeprom) : Prop where
  data : e.lastData = true
  output : e.output = b.getLsbD (7 - n)
  out : e.out = b <<< (n + 1)

/-- The levels and the input of a whole clock pulse, before its fall takes effect. -/
def eePulsed (d : Bool) (e : Eeprom) : Eeprom := eeNote false d (eeClockRise d (eeNote true d e))

/-- Shifting in a byte's bits, most significant first, leaves the byte. -/
theorem foldl_shiftIn_bits (v b : Byte) :
    [7, 6, 5, 4, 3, 2, 1, 0].foldl (fun b k => shiftIn (v.getLsbD k) b) b = v := by
  apply BitVec.eq_of_getLsbD_eq
  intro k hk
  simp only [List.foldl, getLsbD_shiftIn]
  interval_cases k <;> simp

/-- Shifting in bit `n` takes the bits above `n` to those from `n` on. -/
theorem shiftIn_ushiftRight (b : Byte) (n : Nat) : shiftIn (b.getLsbD n) (b >>> (n + 1)) = b >>> n := by
  apply BitVec.eq_of_getLsbD_eq
  intro k hk
  rw [getLsbD_shiftIn, decide_eq_true hk, Bool.true_and, BitVec.getLsbD_ushiftRight, BitVec.getLsbD_ushiftRight]
  split
  · next h => rw [h, Nat.add_zero]
  · next h => congr 1; omega

section
variable {m : EeMode} {a : Memory} {x y n : Nat} {e : Eeprom}

theorem eeAt_eeNote (d : Bool) (h : EeAt m a x y n e) : EeAt m a x y n (eeNote false d e) :=
  ⟨rfl, h.mode, h.array, h.addr, h.bytes, h.bits⟩

theorem eeAt_eePulsed (d : Bool) (h : EeAt m a x y n e) : EeAt m a x y n (eePulsed d e) :=
  ⟨rfl, h.mode, h.array, h.addr, h.bytes, h.bits⟩

theorem eeAt_eeShiftOut (h : EeAt m a x y n e) : EeAt m a x y (n + 1) (eeShiftOut e) :=
  ⟨h.clock, h.mode, h.array, h.addr, h.bytes, congrArg (· + 1) h.bits⟩

variable (w : Nat) (hm : m ≠ .disabled)
include hm

/-! A clock pulse with the data line held: its rise (R317), and the whole of it. -/

theorem eeUpdate_riseAt {d : Bool} (h : EeAt m a x y n e) (hd : e.lastData = d) :
    eeUpdate w true true d e = eeClockRise d (eeNote true d e) :=
  eeUpdate_rise w (h.mode ▸ hm) h.clock hd

theorem eeEvents_pulse {d : Bool} (h : EeAt m a x y n e) (hd : e.lastData = d) :
    eeEvents w [(true, d), (false, d)] e = eeClockFall w (eePulsed d e) := by
  simp only [eeEvents]
  rw [eeUpdate_riseAt w hm h hd]
  exact eeUpdate_fall w (h.mode ▸ hm) rfl

theorem eeSendBit_eq (d : Bool) (h : EeAt m a x y n e) :
    eeSendBit w d e = eeClockFall w (eePulsed d (eeNote false d e)) := by
  rw [eeSendBit, eeEvents, eeUpdate_clockLow w h.clock]
  exact eeEvents_pulse w hm (eeAt_eeNote d h) rfl

/-- A bit sent within a byte. -/
theorem eeSendBit_shift (d : Bool) (h : EeAt m a x y n e) (hn : n < 8) :
    eeSendBit w d e = eeShiftOut (eePulsed d (eeNote false d e)) := by
  have hp := eeAt_eePulsed d (eeAt_eeNote d h)
  rw [eeSendBit_eq w hm d h, eeClockFall_shift w (hp.bits ▸ hn)]

/-- The eighth bit sent (R319). -/
theorem eeSendBit_dispatch (d : Bool) (h : EeAt m a x y 8 e) :
    eeSendBit w d e = eeDispatch w (eePulsed d (eeNote false d e)) := by
  have hp := eeAt_eePulsed d (eeAt_eeNote d h)
  rw [eeSendBit_eq w hm d h, eeClockFall_dispatch w hp.bits]

/-- Bits sent within a byte are shifted into `ee_in`, and change nothing else that the session goes by. -/
theorem eeSendBits_shift (v : Byte) (ks : List Nat) (h : EeAt m a x y n e) (hn : n + ks.length ≤ 8) :
    EeAt m a x y (n + ks.length) (ks.foldl (fun e k => eeSendBit w (v.getLsbD k) e) e) ∧
    (ks.foldl (fun e k => eeSendBit w (v.getLsbD k) e) e).inp =
      ks.foldl (fun b k => shiftIn (v.getLsbD k) b) e.inp := by
  induction ks generalizing n e with
  | nil => exact ⟨h, rfl⟩
  | cons k ks ih =>
    rw [List.length_cons] at hn ⊢
    have hbit := eeAt_eeShiftOut (eeAt_eePulsed (v.getLsbD k) (eeAt_eeNote (v.getLsbD k) h))
    rw [← eeSendBit_shift w hm _ h (by omega)] at hbit
    obtain ⟨hat, hinp⟩ := ih hbit (by omega)
    rw [List.foldl_cons, List.foldl_cons]
    refine ⟨by rwa [Nat.add_assoc, Nat.add_comm 1] at hat, hinp.trans ?_⟩
    rw [eeSendBit_shift w hm _ h (by omega)]
    rfl

/-- The acknowledge clock after a dispatch: the device's level, and the first bit of its output shifter (R324, R318). -/
theorem eeAcknowledgeClock (h : EeAt m a x y 0 e) :
    (eeEvents w [(false, true), (true, true)] e).output = e.output ∧
    EeAt m a x y 1 (eeSendBit w true e) ∧ EeOffers e.out 0 (eeSendBit w true e) := by
  rw [eeSendBit_shift w hm true h (by decide)]
  refine ⟨?_, eeAt_eeShiftOut (eeAt_eePulsed true (eeAt_eeNote true h)), rfl, rfl, rfl⟩
  simp only [eeEvents]
  rw [eeUpdate_clockLow w h.clock, eeUpdate_riseAt w hm (eeAt_eeNote true h) (d := true) rfl]
  rfl

/-- A byte sent is dispatched, and then clocked for its acknowledgement. -/
theorem eeSendByte_dispatch (v : Byte) (h : EeAt m a x y 1 e) : ∃ u, EeAt m a x y 8 u ∧ u.inp = v ∧
    eeSendByte w v e = ((eeEvents w [(false, true), (true, true)] (eeDispatch w u)).output,
      eeSendBit w true (eeDispatch w u)) := by
  obtain ⟨h7, hinp⟩ := eeSendBits_shift w hm v [7, 6, 5, 4, 3, 2, 1] h (by decide)
  have hlast := eeSendBit_dispatch w hm (v.getLsbD 0) h7
  refine ⟨_, eeAt_eePulsed (v.getLsbD 0) (eeAt_eeNote (v.getLsbD 0) h7), ?_, ?_⟩
  · refine Eq.trans ?_ (foldl_shiftIn_bits v e.inp)
    exact congrArg (shiftIn (v.getLsbD 0)) hinp
  · rw [← hlast]
    simp only [eeSendByte, List.foldl_cons, List.foldl_nil]
    rfl

end

/-! Receiving, in READ. -/

section
variable {a : Memory} {x y n : Nat} {e : Eeprom} {b : Byte} (w : Nat)

theorem eeReceiveBit_eq (acc : Byte) (h : EeAt .read a x y n e) (hd : e.lastData = true) :
    eeReceiveBit w (acc, e) = (shiftIn e.output acc, eeClockFall w (eePulsed true e)) := by
  have hbit : eeReceiveBit w (acc, e) =
      (shiftIn (eeUpdate w true true true e).output acc, eeEvents w [(true, true), (false, true)] e) := rfl
  rw [hbit, eeEvents_pulse w (by decide) h hd, eeUpdate_riseAt w (by decide) h hd]
  rfl

theorem eeOffers_eeShiftOut (h : EeOffers b n e) (hn : n < 7) : EeOffers b (n + 1) (eeShiftOut (eePulsed true e)) := by
  refine ⟨rfl, ?_, ?_⟩
  · show e.out.getLsbD 7 = _
    rw [h.out, BitVec.getLsbD_shiftLeft]
    simp [hn]
  · show e.out <<< 1 = _
    rw [h.out, ← BitVec.shiftLeft_add]

/-- The first `n` bits received are the high bits of the byte offered. -/
theorem eeReceiveBits (h : EeAt .read a x y 1 e) (ho : EeOffers b 0 e) (hn : n ≤ 7) :
    ∃ u, (eeReceiveBit w)^[n] (0#8, e) = (b >>> (8 - n), u) ∧ EeAt .read a x y (n + 1) u ∧ EeOffers b n u := by
  induction n with
  | zero =>
    refine ⟨e, ?_, h, ho⟩
    rw [Nat.sub_zero, BitVec.ushiftRight_eq_zero (Nat.le_refl 8)]
    rfl
  | succ n ih =>
    obtain ⟨u, hu, hat, hoff⟩ := ih (by omega)
    have hshift := shiftIn_ushiftRight b (7 - n)
    rw [show 7 - n + 1 = 8 - n by omega] at hshift
    refine ⟨eeShiftOut (eePulsed true u), ?_, eeAt_eeShiftOut (eeAt_eePulsed true hat), eeOffers_eeShiftOut hoff hn⟩
    rw [Function.iterate_succ_apply', hu, eeReceiveBit_eq w _ hat hoff.data, hoff.output, hshift,
      eeClockFall_shift w ((eeAt_eePulsed true hat).bits ▸ Nat.succ_lt_succ hn), show 8 - (n + 1) = 7 - n by omega]

/-- A byte received is the byte offered, and the byte at the address is offered next (R322). -/
theorem eeReceiveByte_spec (h : EeAt .read a x y 1 e) (ho : EeOffers b 0 e) : (eeReceiveByte w e).1 = b ∧
    EeAt .read a (eeAddrSucc w x) y 1 (eeReceiveByte w e).2 ∧ EeOffers (a.get x) 0 (eeReceiveByte w e).2 := by
  obtain ⟨u, hu, hat, hoff⟩ := eeReceiveBits w h ho (Nat.le_refl 7)
  -- the eighth bit, whose fall dispatches
  have hp := eeAt_eePulsed true hat
  have hlast : eeReceiveBit w ((eeReceiveBit w)^[7] (0#8, e)) = (b, eeDispatchRead w (eePulsed true u)) := by
    rw [hu, eeReceiveBit_eq w _ hat hoff.data, hoff.output, eeClockFall_dispatch w hp.bits, eeDispatch_read w hp.mode]
    exact congrArg (·, _) (shiftIn_ushiftRight b 0)
  -- the acknowledge clock, whose fall offers the next byte
  have hnext : EeAt .read a (eeAddrSucc w x) y 0 (eeDispatchRead w (eePulsed true u)) :=
    ⟨rfl, hp.mode, hp.array, eeNextAddr_of_addr w hp.addr, hp.bytes, rfl⟩
  have hbyte : eeReceiveByte w e = (b, eeShiftOut (eePulsed true (eeDispatchRead w (eePulsed true u)))) := by
    rw [← eeClockFall_shift w ((eeAt_eePulsed true hnext).bits ▸ (by decide : 0 < 8)),
      ← eeEvents_pulse w (by decide) hnext (d := true) rfl]
    exact congrArg (fun p : Byte × Eeprom => (p.1, eeEvents w [(true, true), (false, true)] p.2)) hlast
  have hout : u.array.get u.addr = a.get x := by rw [hat.array, hat.addr]
  rw [hbyte, ← hout]
  exact ⟨rfl, eeAt_eeShiftOut (eeAt_eePulsed true hnext), rfl, rfl, rfl⟩

end

end Sys2Proof.Machine
end

section
/-! The bytes and the sessions of the EEPROM (R328). -/

namespace Sys2Proof.Machine

/-- Every byte was acknowledged. -/
def AllAcked (acks : List Bool) : Prop := ∀ k ∈ acks, k = false

/-- The address after one more address byte, most significant first (R321, D22). -/
def eeAddressStep (w x : Nat) (v : Byte) : Nat := (x * 256 + v.toNat) % eeSize w

/-- The address that a session's address bytes select. -/
def eeSelected (w : Nat) (address : List Byte) : Nat := address.foldl (eeAddressStep w) 0

theorem eeSelected_lt (w : Nat) (address : List Byte) : eeSelected w address < eeSize w := by
  have hstep (x : Nat) (hx : x < eeSize w) : address.foldl (eeAddressStep w) x < eeSize w := by
    induction address generalizing x with
    | nil => exact hx
    | cons v vs ih => exact ih _ (Nat.mod_lt _ (eeSize_pos w))
  exact hstep 0 (eeSize_pos w)

theorem eeSendBytes_append (w : Nat) (us vs : List Byte) (e : Eeprom) : eeSendBytes w (us ++ vs) e =
    ((eeSendBytes w us e).1 ++ (eeSendBytes w vs (eeSendBytes w us e).2).1,
      (eeSendBytes w vs (eeSendBytes w us e).2).2) := by
  induction us generalizing e with
  | nil => rfl
  | cons u us ih => simp only [List.cons_append, eeSendBytes, ih]

section
variable {m : EeMode} {a : Memory} {x y n : Nat} {e : Eeprom} (w : Nat)

/-! One byte sent, by the state it is sent in. -/

theorem eeSendByte_writeCommand (h : EeAt .command a x y 1 e) :
    (eeSendByte w 0xA0#8 e).1 = false ∧ EeAt .address a 0 0 1 (eeSendByte w 0xA0#8 e).2 := by
  obtain ⟨u, hu, hinp, hsend⟩ := eeSendByte_dispatch w (by decide) 0xA0#8 h
  rw [hsend, eeDispatch_writeCommand w hu.mode (by rw [hinp]; rfl) (by rw [hinp]; rfl)]
  obtain ⟨hack, hat, _⟩ := eeAcknowledgeClock w (m := .address) (by decide)
    (e := eeAcknowledge false { u with mode := .address, addr := 0, bytes := 0 })
    ⟨hu.clock, rfl, hu.array, rfl, rfl, rfl⟩
  exact ⟨hack, hat⟩

theorem eeSendByte_readCommand (h : EeAt .command a x y 1 e) :
    EeAt .read a (eeAddrSucc w x) y 1 (eeSendByte w 0xA1#8 e).2 ∧ EeOffers (a.get x) 0 (eeSendByte w 0xA1#8 e).2 := by
  obtain ⟨u, hu, hinp, hsend⟩ := eeSendByte_dispatch w (by decide) 0xA1#8 h
  rw [hsend, eeDispatch_readCommand w hu.mode (by rw [hinp]; rfl) (by rw [hinp]; rfl)]
  obtain ⟨_, hat, hoff⟩ := eeAcknowledgeClock w (m := .read) (by decide)
    (e := eeAcknowledge false { eeLoadOutput w u with mode := .read })
    ⟨hu.clock, rfl, hu.array, eeNextAddr_of_addr w hu.addr, hu.bytes, rfl⟩
  have hout : u.array.get u.addr = a.get x := by rw [hu.array, hu.addr]
  exact ⟨hat, hout ▸ hoff⟩

/-- The state within the address bytes, `y` of them taken: ADDRESS, or WRITE after the last (R321). -/
def eeAddressMode (w y : Nat) : EeMode := if eeAddressBytes w ≤ y then .write else .address

theorem eeAddressMode_ne_disabled (y : Nat) : eeAddressMode w y ≠ .disabled := by
  unfold eeAddressMode
  split <;> decide

theorem eeSendByte_address (v : Byte) (h : EeAt .address a x y 1 e) : (eeSendByte w v e).1 = false ∧
    EeAt (eeAddressMode w (y + 1)) a (eeAddressStep w x v) (y + 1) 1 (eeSendByte w v e).2 := by
  obtain ⟨u, hu, rfl, hsend⟩ := eeSendByte_dispatch w (by decide) v h
  rw [hsend, eeDispatch_address w hu.mode]
  obtain ⟨hack, hat, _⟩ := eeAcknowledgeClock w (eeAddressMode_ne_disabled w (y + 1)) (e := eeDispatchAddress w u)
    ⟨hu.clock, congrArg (fun y => eeAddressMode w (y + 1)) hu.bytes, hu.array,
      congrArg (eeAddressStep w · u.inp) hu.addr, congrArg (· + 1) hu.bytes, rfl⟩
  exact ⟨hack, hat⟩

theorem eeSendByte_data (v : Byte) (h : EeAt .write a x y 1 e) : (eeSendByte w v e).1 = false ∧
    EeAt .write (a.set x v) (eeAddrSucc w x) y 1 (eeSendByte w v e).2 := by
  obtain ⟨u, hu, rfl, hsend⟩ := eeSendByte_dispatch w (by decide) v h
  rw [hsend, eeDispatch_write w hu.mode]
  have harray : u.array.set u.addr u.inp = a.set x u.inp := by rw [hu.array, hu.addr]
  obtain ⟨hack, hat, _⟩ := eeAcknowledgeClock w (m := .write) (by decide) (e := eeDispatchWrite w u)
    ⟨hu.clock, hu.mode, harray, eeNextAddr_of_addr w hu.addr, hu.bytes, rfl⟩
  exact ⟨hack, hat⟩

/-! Runs of bytes. -/

/-- The address bytes of a session, of which the last leads to WRITE. -/
theorem eeSendBytes_address (vs : List Byte) (h : EeAt (eeAddressMode w y) a x y 1 e)
    (hlen : y + vs.length = eeAddressBytes w) : AllAcked (eeSendBytes w vs e).1 ∧
    EeAt .write a (vs.foldl (eeAddressStep w) x) (y + vs.length) 1 (eeSendBytes w vs e).2 := by
  induction vs generalizing x y e with
  | nil =>
    rw [eeAddressMode, if_pos (show eeAddressBytes w ≤ y from hlen.ge)] at h
    exact ⟨List.forall_mem_nil _, h⟩
  | cons v vs ih =>
    rw [List.length_cons] at hlen
    rw [eeAddressMode, if_neg (by omega)] at h
    obtain ⟨hack, hat⟩ := eeSendByte_address w v h
    obtain ⟨hacks, hat'⟩ := ih hat (by omega)
    rw [Nat.add_assoc, Nat.add_comm 1] at hat'
    exact ⟨List.forall_mem_cons.2 ⟨hack, hacks⟩, hat'⟩

/-- The data bytes of a write session are stored in a run (R323). -/
theorem eeSendBytes_data (vs : List Byte) (h : EeAt .write a x y 1 e) : AllAcked (eeSendBytes w vs e).1 ∧
    ∃ x', EeAt .write (storeRun w x vs a) x' y 1 (eeSendBytes w vs e).2 := by
  induction vs generalizing a x e with
  | nil => exact ⟨List.forall_mem_nil _, x, h⟩
  | cons v vs ih =>
    obtain ⟨hack, hat⟩ := eeSendByte_data w v h
    obtain ⟨hacks, hat'⟩ := ih hat
    exact ⟨List.forall_mem_cons.2 ⟨hack, hacks⟩, hat'⟩

/-- The bytes received are a run of the array (R322). -/
theorem eeReceiveBytes_eq_loadRun (h : EeAt .read a (eeAddrSucc w x) y 1 e) (ho : EeOffers (a.get x) 0 e) :
    (eeReceiveBytes w n e).1 = loadRun w a x n := by
  induction n generalizing x e with
  | zero => rfl
  | succ n ih =>
    obtain ⟨hbyte, hat, hoff⟩ := eeReceiveByte_spec w h ho
    exact congrArg₂ List.cons hbyte (ih hat hoff)

/-! The conditions of the lines. -/

theorem eeSendStart_spec (hd : e.lastData = true) :
    EeAt .command e.array e.addr 0 1 (eeSendStart w e) := by
  have hfall : eeSendStart w e = eeShiftOut (eeNote false false (eeStart (eeNote true false e))) := by
    simp only [eeSendStart, eeEvents]
    rw [eeUpdate_start w hd, eeUpdate_fall w (by simp [eeStart]) rfl]
    exact eeClockFall_shift w (by decide : 0 < 8)
  rw [hfall]
  exact ⟨rfl, rfl, rfl, rfl, rfl, rfl⟩

theorem eeSendRestart_spec (hm : m ≠ .disabled) (h : EeAt m a x y n e) :
    EeAt .command a x 0 1 (eeSendRestart w e) := by
  have hhigh : eeEvents w [(false, true), (true, true)] e =
      eeClockRise true (eeNote true true (eeNote false true e)) := by
    rw [eeEvents, eeUpdate_clockLow w h.clock]
    exact eeUpdate_riseAt w hm (eeAt_eeNote true h) rfl
  have hstart := eeSendStart_spec w (e := eeEvents w [(false, true), (true, true)] e) (by rw [hhigh]; rfl)
  rw [hhigh] at hstart
  rw [eeSendRestart, hhigh]
  exact h.array ▸ h.addr ▸ hstart

theorem eeSendStop_spec (hm : m ≠ .disabled) (h : EeAt m a x y n e) : (eeSendStop w e).array = a ∧
    (eeSendStop w e).lastData = true := by
  have hstop : eeSendStop w e =
      eeStop (eeNote true true (eeClockRise false (eeNote true false (eeNote false false e)))) := by
    simp only [eeSendStop, eeEvents]
    rw [eeUpdate_clockLow w h.clock, eeUpdate_riseAt w hm (eeAt_eeNote false h) (d := false) rfl]
    exact eeUpdate_stop w rfl
  rw [hstop]
  exact ⟨h.array, rfl⟩

/-! The sessions. -/

/-- What a write and a read session begin with: START, the write command and the address. -/
theorem eeSelect_spec {address : List Byte} (hd : e.lastData = true) (hw : 1 ≤ w)
    (hlen : address.length = eeAddressBytes w) :
    AllAcked (eeSendBytes w (0xA0#8 :: address) (eeSendStart w e)).1 ∧
    EeAt .write e.array (eeSelected w address) (0 + address.length) 1
      (eeSendBytes w (0xA0#8 :: address) (eeSendStart w e)).2 := by
  obtain ⟨hack, hat⟩ := eeSendByte_writeCommand w (eeSendStart_spec w hd)
  have hmode : eeAddressMode w 0 = .address := if_neg (by unfold eeAddressBytes; omega)
  obtain ⟨hacks, hat'⟩ := eeSendBytes_address w address (hmode ▸ hat) (by omega)
  exact ⟨List.forall_mem_cons.2 ⟨hack, hacks⟩, hat'⟩

theorem eeWriteSession_spec {address : List Byte} (data : List Byte) (hd : e.lastData = true)
    (hw : 1 ≤ w) (hlen : address.length = eeAddressBytes w) : AllAcked (eeWriteSession w address data e).1 ∧
    (eeWriteSession w address data e).2.array = storeRun w (eeSelected w address) data e.array ∧
    (eeWriteSession w address data e).2.lastData = true := by
  obtain ⟨hacks, hat⟩ := eeSelect_spec w hd hw hlen
  obtain ⟨hacks', _, hat'⟩ := eeSendBytes_data w data hat
  simp only [eeWriteSession]
  rw [← List.cons_append, eeSendBytes_append]
  exact ⟨List.forall_mem_append.2 ⟨hacks, hacks'⟩, eeSendStop_spec w (by decide) hat'⟩

theorem eeReadSession_spec {address : List Byte} (n : Nat) (hd : e.lastData = true)
    (hw : 1 ≤ w) (hlen : address.length = eeAddressBytes w) :
    (eeReadSession w address n e).1 = loadRun w e.array (eeSelected w address) n := by
  obtain ⟨_, hat⟩ := eeSelect_spec w hd hw hlen
  obtain ⟨hat', hoff⟩ := eeSendByte_readCommand w (eeSendRestart_spec w (by decide) hat)
  exact eeReceiveBytes_eq_loadRun w hat' hoff

end

/-- Settles O40: the write session stores a run from the address selected, and the read session loads it. -/
theorem eepromRoundTrip : Obligations.EepromRoundTrip := by
  intro w e address data hw hwf _ hd hlen hdata
  obtain ⟨harray, _⟩ := (eepromWf_iff w e).1 hwf
  obtain ⟨hacks, hstored, hd'⟩ := eeWriteSession_spec w data hd hw hlen
  refine ⟨hacks, ?_⟩
  rw [eeReadSession_spec w data.length hd' hw hlen, hstored]
  exact loadRun_storeRun (eeSelected_lt w address) hdata harray

end Sys2Proof.Machine
end
